-- ==== Sys2Proof/Word.lean ====
section
/-! DEFINITION. The bit vectors of the MFE: bytes of a frame, the 16-bit CRC register, 32-bit host registers
(spec/00_scope.md R6, R8). -/

namespace Sys2Proof

/-- One byte of a frame or of a buffer (spec/00_scope.md R9). -/
abbrev Byte := BitVec 8

/-- The width `CRC_W` of the CRC register (spec/00_scope.md R6). -/
abbrev Half := BitVec 16

/-- The width `REG_W` of a host register (spec/00_scope.md R6). -/
abbrev Word := BitVec 32

end Sys2Proof
end

