-- ==== Sys2Proof/Config.lean ====
section
/-! DEFINITION. What an implementation of the MFE fixes (the parameters of spec/00_scope.md R6) and the free values the
spec leaves open. A constant declared `opaque` has no body: nothing in Lean can compute it, so a statement about it
holds for every value. -/

namespace Sys2Proof

/-- What `ChanWrite` answers (spec/43_exchange.md R190). -/
inductive WriteAnswer where
  | ok
  | err
  deriving DecidableEq, Repr, Inhabited

/-- What `ChanWaitReadable` answers (spec/43_exchange.md R190). -/
inductive WaitAnswer where
  | readable
  | expired
  deriving DecidableEq, Repr, Inhabited

/-- What `ChanRead` answers (spec/43_exchange.md R190): the bytes, in reception order, or `err`. -/
inductive ReadAnswer where
  | bytes (r : List Byte)
  | err
  deriving DecidableEq, Repr, Inhabited

namespace Config

/-- `CRC_INIT` (spec/00_scope.md R6). -/
def crcInit : Half := 0xFFFF

/-- `CRC_POLY`, the reflected mask (spec/00_scope.md R6). -/
def crcPoly : Half := 0xA001

/-- `TX_CAP`: the TX buffer holds the largest request (spec/00_scope.md R6). -/
def txCap : Nat := 11

/-- `WIN_SIZE`: the register window in bytes (spec/00_scope.md R6). -/
def winSize : Nat := 0x200

/-- What `RX_CAP` has above its least value 20: OPEN (spec/00_scope.md R6, log entry 1). -/
opaque rxCapExtra : Fin 236

/-- `RX_CAP`, an OPEN parameter with 20 <= RX_CAP <= 255 (spec/00_scope.md R6, log entry 1). -/
def rxCap : Nat := rxCapExtra.val + 20

/-- What `P_TURN_MS` has above 1: OPEN (log entry 2). -/
opaque turnExtra : Nat

/-- `P_TURN_MS` > 0, an OPEN parameter (spec/00_scope.md R6, log entry 2). DESIGN CHOICE: a whole number of ms; the spec says
only that it is positive. -/
def turnMs : Nat := turnExtra + 1

/-- What `P_TIMEOUT_MS` has above 1: OPEN (log entry 2). -/
opaque timeoutExtra : Nat

/-- `P_TIMEOUT_MS` > 0, an OPEN parameter (spec/00_scope.md R6, log entry 2). DESIGN CHOICE: a whole number of ms; the spec
says only that it is positive. -/
def timeoutMs : Nat := timeoutExtra + 1

/-- `MFE_BASE`, where the platform puts the register window: OPEN (spec/20_memory.md R60, R75, log entry 3). -/
opaque mfeBase : Nat

/-- FREE VALUE: what TX cell `i` reads as when nothing has written it since reset, at draw `n` (spec/10_state.md R46,
log entry 4). -/
opaque unwrittenTx (n i : Nat) : Byte

/-- FREE VALUE: what RX cell `i` reads as when nothing has written it since reset, at draw `n` (spec/10_state.md R46,
log entry 4). -/
opaque unwrittenRx (n i : Nat) : Byte

/-- FREE VALUE: the channel's answer to a write that no given answer covers, at draw `n` (spec/43_exchange.md R190,
log entry 8). -/
opaque chanWriteDraw (n : Nat) : WriteAnswer

/-- FREE VALUE: the channel's answer to a wait that no given answer covers, at draw `n` (spec/43_exchange.md R190,
log entry 8). -/
opaque chanWaitDraw (n : Nat) : WaitAnswer

/-- FREE VALUE: the channel's answer to a read that no given answer covers, at draw `n` (spec/43_exchange.md R190,
log entry 8). -/
opaque chanReadDraw (n : Nat) : ReadAnswer

end Config

end Sys2Proof
end

