-- ==== Sys2Proof/Machine/CrcFunctions.lean ====
section
/-! DEFINITION. The CRC functions and the byte-order helpers that the decoder and the machine share
(spec/40_crc.md R110, R111, R116; spec/20_memory.md R66, R68). -/

namespace Sys2Proof.Machine

/-- One iteration of rule R110: the LSB is tested before the shift. -/
def crcRound (r : Half) : Half :=
  if r.getLsbD 0 then (r >>> 1) ^^^ Config.crcPoly else r >>> 1

/-- `n` iterations of rule R110. -/
def crcRounds : Nat → Half → Half
  | 0, r => r
  | n + 1, r => crcRounds n (crcRound r)

/-- `crc_step(r, b)` of rule R110. -/
def crcStep (r : Half) (b : Byte) : Half := crcRounds 8 (r ^^^ b.zeroExtend 16)

/-- `crc16(s)` of rule R111. -/
def crc16 (s : List Byte) : Half := s.foldl crcStep Config.crcInit

/-- A CRC value as it stands in a frame, low byte first (R66, R116). -/
def crcBytes (c : Half) : List Byte := [c.extractLsb' 0 8, c.extractLsb' 8 8]

/-- The frame of a body: the body and its CRC (R66, R130). -/
def withCrc (body : List Byte) : List Byte := body ++ crcBytes (crc16 body)

/-- Byte lane `m` of a 32-bit word, bits [8m+7 : 8m] (R68). -/
def wordLane (w : Word) (m : Nat) : Byte := w.extractLsb' (8 * m) 8

/-- The word whose byte lanes 0 to 3 are the arguments (R68). -/
def wordOfLanes (b0 b1 b2 b3 : Byte) : Word :=
  b0.zeroExtend 32 ||| (b1.zeroExtend 32 <<< 8) ||| (b2.zeroExtend 32 <<< 16) ||| (b3.zeroExtend 32 <<< 24)

/-- The four lanes of a word, lane 0 first. -/
def wordBytes (w : Word) : List Byte := [wordLane w 0, wordLane w 1, wordLane w 2, wordLane w 3]

end Sys2Proof.Machine
end

