-- ==== Sys2Proof/Machine/State.lean ====
section
/-! DEFINITION. The state of the MFE as plain data: every register and buffer of spec/10_state.md, and the model's own
fields for the agents around the MFE (spec/00_scope.md R5); the reasons a step can stop; the state after reset. -/

namespace Sys2Proof.Machine

/-- The result codes of STATUS.RESULT (spec/60_exceptions.md R221). -/
inductive ResultCode where
  | ok
  | timeout
  | ioError
  | wrongSize
  | wrongCrc
  | illegalOp
  | noFrame
  deriving DecidableEq, Repr

/-- The controller states of STATUS.XSTATE (spec/10_state.md R30). -/
inductive XState where
  | idle
  | exec
  | send
  | turn
  | wait
  deriving DecidableEq, Repr

/-- A byte buffer: the cells written since reset, by rising index. A cell that is not listed has no value of its own;
what a read of it gives is a free value (spec/10_state.md R46, log entry 4). -/
abbrev Memory := List Host.Cell

/-- The canonical form of a buffer: indices strictly rising. -/
abbrev Memory.wf (m : Memory) : Prop := m.Pairwise (fun x y => x.1 < y.1)

/-- What the host does next, one instruction of its program (spec/30_encoding.md R95, R96). An access names a bus
address and a width in bits (spec/20_memory.md R60, R61). -/
inductive HostInstr where
  /-- A read of `width` bits at a bus address. -/
  | read (address width : Nat)
  /-- A write of `width` bits at a bus address. -/
  | write (address width : Nat) (v : Word)
  /-- `POLL`: read STATUS, again and again while DONE = 0 (R96). -/
  | poll
  /-- The branch of `TRANSACT`: leave out the next `n` instructions unless the value last read has RESULT = OK (R96). -/
  | unlessOkSkip (n : Nat)
  deriving DecidableEq, Repr

/-- Which agent moves (spec/00_scope.md R5). -/
inductive Move where
  /-- The controller takes its step, if it has one enabled. -/
  | controller
  /-- The timer lets `ms` milliseconds pass. -/
  | tick (ms : Nat)
  /-- The host executes the next instruction of its program, if one is left. -/
  | host
  /-- The reset input is asserted (spec/70_reset_and_hazards.md R250). -/
  | reset
  deriving DecidableEq, Repr

/-- Why a step stops although the machine has no trap. -/
inductive Fault where
  /-- Raised by a host access at a bus address outside the window MFE_BASE + 0x000..0x1FF, which is no address of the
  MFE (spec/20_memory.md R60). Safe: the model stops, nothing is proved of such an access. -/
  | outsideWindow (address : Nat)
  deriving DecidableEq, Repr

/-- What the model gives no meaning to. -/
inductive Refusal where
  /-- Raised by an arm of `exec` whose instruction has no meaning yet. Safe: nothing is proved of it. -/
  | notModelled (mnemonic : String)
  /-- Raised by a host access that is not 32 bits wide or not at a multiple of 4: the spec gives it no defined effect
  and says that a model refuses it (spec/20_memory.md R61, 93_implementation_defined.md I3). Safe. -/
  | unsupportedAccess (off width : Nat)
  deriving DecidableEq, Repr

/-- The state of the MFE, and after it the model's own fields. -/
structure State where
  /-- STATUS.BUSY (spec/10_state.md R25). -/
  busy : Bool
  /-- STATUS.DONE (R26). -/
  done : Bool
  /-- STATUS.DVALID (R27). -/
  dvalid : Bool
  /-- STATUS.CMDERR (R28). -/
  cmderr : Bool
  /-- STATUS.RESULT (R29). -/
  result : ResultCode
  /-- STATUS.XSTATE (R30). -/
  xstate : XState
  /-- DEVADDR.ADDR (R31). -/
  devaddr : Byte
  /-- SUBIDX.SUB (R32). -/
  subidx : Byte
  /-- EPARAM[15:0]: MONTH [3:0], PERIOD [7:4], TARIFF [15:8] (R33). -/
  eparam : Half
  /-- ACCESS.LEVEL (R34). -/
  access : Byte
  /-- PWD0: PW0 to PW3 (R35). -/
  pwd0 : Word
  /-- PWD1[15:0]: PW4 and PW5 (R35). -/
  pwd1 : Half
  /-- CRC.CRC (R36). -/
  crc : Half
  /-- TXLEN.LEN (R37). -/
  txlen : Byte
  /-- RXLEN.LEN (R38). -/
  rxlen : Byte
  /-- VAL0 to VAL3 (R42). -/
  val0 : Word
  val1 : Word
  val2 : Word
  val3 : Word
  /-- The TX buffer, TX[0..10] (R40). -/
  tx : Memory
  /-- The RX buffer, RX[0..RX_CAP-1] (R41). -/
  rx : Memory
  /-- The latched command word (R43). -/
  pending : Word
  /-- The exchange timer, in ms (R43). -/
  timer : Nat
  /-- MODEL: the channel's coming answers to `ChanWrite` (log entry 8). -/
  chanWrites : List WriteAnswer
  /-- MODEL: the channel's coming answers to `ChanWaitReadable` (log entry 8). -/
  chanWaits : List WaitAnswer
  /-- MODEL: the channel's coming answers to `ChanRead` (log entry 8). -/
  chanReads : List ReadAnswer
  /-- MODEL: the frames the channel took with `ok`, oldest first (log entry 9). -/
  sent : List (List Byte)
  /-- MODEL: the coming moves of the agents (log entry 6). -/
  schedule : List Move
  /-- MODEL: what the host has still to execute, the next instruction first (spec/30_encoding.md R95, log entry 19). -/
  program : List HostInstr
  /-- MODEL: what RegRead gave the host, oldest first (log entry 10). -/
  hostReads : List Word
  /-- MODEL: the counter at which free values are drawn (log entry 14). -/
  draws : Nat
  deriving DecidableEq, Repr

/-- What a step of the MFE answers. -/
abbrev Answer := Host.Outcome State Fault Refusal

/-- The state after reset (spec/10_state.md R45); PENDING and the model's own fields as log entries 5 to 14 say. -/
def State.reset : State where
  busy := false
  done := false
  dvalid := false
  cmderr := false
  result := .ok
  xstate := .idle
  devaddr := 0x00
  subidx := 0x00
  eparam := 0x0000
  access := 0x01
  pwd0 := 0x01010101
  pwd1 := 0x0101
  crc := 0xFFFF
  txlen := 0
  rxlen := 0
  val0 := 0
  val1 := 0
  val2 := 0
  val3 := 0
  tx := []
  rx := []
  pending := 0
  timer := 0
  chanWrites := []
  chanWaits := []
  chanReads := []
  sent := []
  schedule := []
  program := []
  hostReads := []
  draws := 0

end Sys2Proof.Machine
end

