-- ==== Sys2Proof/Machine/Flags.lean ====
section
/-! DEFINITION. The STATUS register: the codes of its fields and its layout (spec/10_state.md R24, R30;
spec/60_exceptions.md R221). -/

namespace Sys2Proof.Machine

/-- The code of a result (spec/60_exceptions.md R221). -/
def resultBits : ResultCode → BitVec 4
  | .ok => 0
  | .timeout => 1
  | .ioError => 2
  | .wrongSize => 3
  | .wrongCrc => 4
  | .illegalOp => 5
  | .noFrame => 6

/-- The code of a controller state (spec/10_state.md R30). -/
def xstateBits : XState → BitVec 4
  | .idle => 0
  | .exec => 1
  | .send => 2
  | .turn => 3
  | .wait => 4

/-- STATUS as the host reads it (spec/10_state.md R24): XSTATE [11:8], RESULT [7:4], CMDERR [3], DVALID [2], DONE [1],
BUSY [0]; bits [31:12] read 0. -/
def statusWord (s : State) : Word :=
  (BitVec.ofBool s.busy).zeroExtend 32 ||| ((BitVec.ofBool s.done).zeroExtend 32 <<< 1) |||
    ((BitVec.ofBool s.dvalid).zeroExtend 32 <<< 2) ||| ((BitVec.ofBool s.cmderr).zeroExtend 32 <<< 3) |||
    ((resultBits s.result).zeroExtend 32 <<< 4) ||| ((xstateBits s.xstate).zeroExtend 32 <<< 8)

end Sys2Proof.Machine
end

