-- ==== Sys2Proof/Machine/Ops.lean ====
section
/-! DEFINITION. The named operations over the buffers and over STATUS: reading and writing cells, accepting a command,
completing it (the MFE's only 'raise', spec/60_exceptions.md R222, R224), reset. -/

namespace Sys2Proof.Machine

/-- The value of cell `a`, if something has written it since reset. -/
def memRead : Memory → Nat → Option Byte
  | [], _ => none
  | (i, b) :: m, a => if i = a then some b else memRead m a

/-- Write cell `a`, keeping the indices in rising order. -/
def memWrite : Memory → Nat → Byte → Memory
  | [], a, b => [(a, b)]
  | (i, x) :: m, a, b =>
    if a < i then (a, b) :: (i, x) :: m
    else if a = i then (a, b) :: m
    else (i, x) :: memWrite m a b

/-- Write the cells from `a` on, in order. -/
def memWriteBytes : Memory → Nat → List Byte → Memory
  | m, _, [] => m
  | m, a, b :: bs => memWriteBytes (memWrite m a b) (a + 1) bs

/-- TX[i], or a free value where nothing has written it (spec/10_state.md R40, R46). -/
def txByte (s : State) (i : Nat) : Byte := (memRead s.tx i).getD (Config.unwrittenTx s.draws i)

/-- RX[i], or a free value where nothing has written it (spec/10_state.md R41, R46). -/
def rxByte (s : State) (i : Nat) : Byte := (memRead s.rx i).getD (Config.unwrittenRx s.draws i)

/-- TX[0..TXLEN), the request frame (spec/10_state.md R37). -/
def txFrame (s : State) : List Byte := (List.range s.txlen.toNat).map (txByte s)

/-- RX[0..n). -/
def rxBytes (s : State) (n : Nat) : List Byte := (List.range n).map (rxByte s)

/-- `complete(code)` (spec/60_exceptions.md R224). -/
def complete (code : ResultCode) (s : State) : State :=
  { s with result := code, busy := false, done := true, xstate := .idle }

/-- Acceptance of a CMD write while BUSY = 0 (spec/60_exceptions.md R220). -/
def accept (w : Word) (s : State) : State :=
  { s with
    pending := w, busy := true, done := false, dvalid := false, cmderr := false, xstate := .exec }

/-- A CMD write while BUSY = 1: the word is dropped (spec/60_exceptions.md R220). -/
def dropCommand (s : State) : State := { s with cmderr := true }

/-- `emit(body)` (spec/41_serializer.md R130). -/
def emit (body : List Byte) (s : State) : State :=
  complete .ok
    { s with
      tx := memWriteBytes s.tx 0 (withCrc body)
      txlen := BitVec.ofNat 8 (withCrc body).length
      crc := crc16 body }

/-- `RX[i] <- r[i]`, `RXLEN <- len(r)`, `complete(OK)` (spec/43_exchange.md R199). -/
def receive (r : List Byte) (s : State) : State :=
  complete .ok { s with rx := memWriteBytes s.rx 0 r, rxlen := BitVec.ofNat 8 r.length }

/-- An exchange that ends with TIMEOUT or IO_ERROR: RXLEN becomes 0 (spec/43_exchange.md R200). -/
def exchangeFailed (code : ResultCode) (s : State) : State := complete code { s with rxlen := 0 }

/-- Reset (spec/70_reset_and_hazards.md R250): the MFE takes the values of R45; the channel, the host and the schedule
are outside it and stay (log entry 18). -/
def resetMachine (s : State) : State :=
  { State.reset with
    chanWrites := s.chanWrites
    chanWaits := s.chanWaits
    chanReads := s.chanReads
    sent := s.sent
    schedule := s.schedule
    program := s.program
    hostReads := s.hostReads
    draws := s.draws }

end Sys2Proof.Machine
end

