-- ==== Sys2Proof/Machine/CrcCommands.lean ====
section
/-! DEFINITION. The commands of the CRC unit (spec/40_crc.md) and the illegal words (spec/60_exceptions.md R223). -/

namespace Sys2Proof.Machine

/-- CRC.INIT (R112). -/
def execCrcInit (s : State) : Answer := .next (complete .ok { s with crc := Config.crcInit })

/-- CRC.BYTE (R113). -/
def execCrcByte (b : Byte) (s : State) : Answer :=
  .next (complete .ok { s with crc := crcStep s.crc b })

/-- An illegal word completes with ILLEGAL_OP and changes nothing but STATUS (R223). -/
def execIllegal (_w : Word) (s : State) : Answer := .next (complete .illegalOp s)

end Sys2Proof.Machine
end

