-- ==== Sys2Proof/Syntax.lean ====
section
/-! DEFINITION. The rows of spec/opcode_table.json as one inductive: the 13 commands and the illegal words of the
command register, and the frames of the wire (spec/30_encoding.md R83, R87, R91). -/

namespace Sys2Proof

/-- A 3-byte packed field in frame order (spec/42_deserializer.md R165). -/
structure Group3 where
  b0 : Byte
  b1 : Byte
  b2 : Byte
  deriving DecidableEq, Repr

/-- A 4-byte packed field in frame order (spec/42_deserializer.md R166). -/
structure Group4 where
  b0 : Byte
  b1 : Byte
  b2 : Byte
  b3 : Byte
  deriving DecidableEq, Repr

/-- One constructor per row of spec/opcode_table.json, in the table's order. The CRC bytes of a wire frame are no
operands: they are fixed by the bytes before them. -/
inductive Instr where
  | crcInit
  | crcByte (b : Byte)
  | encProbe
  | encOpen
  | encClose
  | encAux
  | encEnergy
  | decStatus
  | decScalar3
  | decPhase3
  | decSumphase3
  | decEnergy4
  | xchg
  /-- A word of CMD that rule R82 calls illegal. -/
  | illegal (w : Word)
  | wireRequestProbe (addr : Byte)
  | wireRequestOpenSession (addr level p0 p1 p2 p3 p4 p5 : Byte)
  | wireRequestCloseSession (addr : Byte)
  | wireRequestReadVoltage (addr : Byte)
  | wireRequestReadCurrent (addr : Byte)
  | wireRequestReadAngle (addr : Byte)
  | wireRequestReadCosPhi (addr : Byte)
  | wireRequestReadFrequency (addr : Byte)
  | wireRequestReadActivePower (addr : Byte)
  | wireRequestReadReactivePower (addr : Byte)
  /-- `pm` is `(period << 4) | month`. -/
  | wireRequestReadEnergyCounters (addr pm tariff : Byte)
  | wireResponseStatus (addr status : Byte)
  | wireResponseScalar3 (addr : Byte) (val : Group3)
  | wireResponsePhase3 (addr : Byte) (p1 p2 p3 : Group3)
  | wireResponseSumphase3 (addr : Byte) (sum p1 p2 p3 : Group3)
  | wireResponseEnergy4 (addr : Byte) (ap am rp rm : Group4)
  deriving DecidableEq, Repr

end Sys2Proof
end

