-- ==== Sys2Proof/Machine/Operands.lean ====
section
/-! DEFINITION. Operand forms: the fields a command reads from the parameter registers, the packed numeric fields of a
response, and the register map of the host window (spec/10_state.md R22, R31 to R42; spec/42_deserializer.md R165,
R166). -/

namespace Sys2Proof.Machine

/-- PW0..PW5, PW0 first on the wire (spec/10_state.md R35, spec/20_memory.md R68). -/
def password (s : State) (k : Nat) : Byte :=
  if k < 4 then wordLane s.pwd0 k else s.pwd1.extractLsb' (8 * (k - 4)) 8

/-- The request byte `(PERIOD << 4) | MONTH` = EPARAM[7:0] (spec/10_state.md R33, spec/30_encoding.md R88). -/
def periodMonth (s : State) : Byte := s.eparam.extractLsb' 0 8

/-- EPARAM.TARIFF (spec/10_state.md R33). -/
def tariff (s : State) : Byte := s.eparam.extractLsb' 8 8

/-- `d3` (spec/42_deserializer.md R165). -/
def d3 (b0 b1 b2 : Byte) : Word :=
  ((b0 &&& 0x3F).zeroExtend 32 <<< 16) ||| (b2.zeroExtend 32 <<< 8) ||| b1.zeroExtend 32

/-- `d4` (spec/42_deserializer.md R166). -/
def d4 (b0 b1 b2 b3 : Byte) : Word :=
  ((b1 &&& 0x3F).zeroExtend 32 <<< 24) ||| (b0.zeroExtend 32 <<< 16) ||| (b3.zeroExtend 32 <<< 8) |||
    b2.zeroExtend 32

/-- `e3`, the packer of rule R177: `[v[21:16], v[7:0], v[15:8]]`. -/
def e3 (v : Word) : Group3 :=
  ⟨(v.extractLsb' 16 6).zeroExtend 8, v.extractLsb' 0 8, v.extractLsb' 8 8⟩

/-- `e4`, the packer of rule R177: `[v[23:16], v[29:24], v[7:0], v[15:8]]`. -/
def e4 (v : Word) : Group4 :=
  ⟨v.extractLsb' 16 8, (v.extractLsb' 24 6).zeroExtend 8, v.extractLsb' 0 8, v.extractLsb' 8 8⟩

/-- `d3` of RX[k..k+3). -/
def rxField3 (s : State) (k : Nat) : Word := d3 (rxByte s k) (rxByte s (k + 1)) (rxByte s (k + 2))

/-- `d4` of RX[k..k+4). -/
def rxField4 (s : State) (k : Nat) : Word :=
  d4 (rxByte s k) (rxByte s (k + 1)) (rxByte s (k + 2)) (rxByte s (k + 3))

/-- The registers of the window (spec/10_state.md R22). -/
inductive Reg where
  | cmd
  | status
  | devaddr
  | subidx
  | eparam
  | access
  | pwd0
  | pwd1
  | crc
  | txlen
  | rxlen
  | caps
  | val0
  | val1
  | val2
  | val3
  | txdata (j : Nat)
  | rxdata (k : Nat)
  | reserved
  deriving DecidableEq, Repr

/-- The register at a word-aligned offset of the window (spec/10_state.md R22). -/
def regAt (off : Nat) : Reg :=
  match off with
  | 0x000 => .cmd
  | 0x004 => .status
  | 0x008 => .devaddr
  | 0x00C => .subidx
  | 0x010 => .eparam
  | 0x014 => .access
  | 0x018 => .pwd0
  | 0x01C => .pwd1
  | 0x020 => .crc
  | 0x024 => .txlen
  | 0x028 => .rxlen
  | 0x02C => .caps
  | 0x030 => .val0
  | 0x034 => .val1
  | 0x038 => .val2
  | 0x03C => .val3
  | 0x080 => .txdata 0
  | 0x084 => .txdata 1
  | 0x088 => .txdata 2
  | n => if 0x100 ≤ n then .rxdata ((n - 0x100) / 4) else .reserved

/-- CAPS for a given RX_CAP: RXCAP [7:0], TXCAP [15:8] = 11 (spec/10_state.md R39). -/
def capsOf (rxCap : Nat) : Word :=
  (BitVec.ofNat 8 rxCap).zeroExtend 32 ||| ((BitVec.ofNat 8 Config.txCap).zeroExtend 32 <<< 8)

/-- Lane `i` of TXDATA: TX[i], and 0 past the buffer (spec/10_state.md R40). -/
def txLane (s : State) (i : Nat) : Byte := if i < Config.txCap then txByte s i else 0

/-- Lane `i` of RXDATA: RX[i], and 0 past the buffer (spec/10_state.md R41). -/
def rxLane (s : State) (i : Nat) : Byte := if i < Config.rxCap then rxByte s i else 0

/-- What a host read of a register gives (spec/10_state.md R22 to R42). -/
def readReg (s : State) : Reg → Word
  | .cmd => 0
  | .status => statusWord s
  | .devaddr => s.devaddr.zeroExtend 32
  | .subidx => s.subidx.zeroExtend 32
  | .eparam => s.eparam.zeroExtend 32
  | .access => s.access.zeroExtend 32
  | .pwd0 => s.pwd0
  | .pwd1 => s.pwd1.zeroExtend 32
  | .crc => s.crc.zeroExtend 32
  | .txlen => s.txlen.zeroExtend 32
  | .rxlen => s.rxlen.zeroExtend 32
  | .caps => capsOf Config.rxCap
  | .val0 => s.val0
  | .val1 => s.val1
  | .val2 => s.val2
  | .val3 => s.val3
  | .txdata j =>
    wordOfLanes (txLane s (4 * j)) (txLane s (4 * j + 1)) (txLane s (4 * j + 2))
      (txLane s (4 * j + 3))
  | .rxdata k =>
    wordOfLanes (rxLane s (4 * k)) (rxLane s (4 * k + 1)) (rxLane s (4 * k + 2))
      (rxLane s (4 * k + 3))
  | .reserved => 0

/-- Store lanes from cell `i` on, leaving out those past RX_CAP (spec/10_state.md R41). -/
def writeRxLanes : Memory → Nat → List Byte → Memory
  | m, _, [] => m
  | m, i, b :: bs => writeRxLanes (if i < Config.rxCap then memWrite m i b else m) (i + 1) bs

/-- What a host write to a register other than CMD stores while BUSY = 0 (spec/10_state.md R31 to R41,
spec/20_memory.md R62, R64). A write to CMD is acceptance (R220). -/
def writeReg (w : Word) (s : State) : Reg → State
  | .cmd => accept w s
  | .devaddr => { s with devaddr := wordLane w 0 }
  | .subidx => { s with subidx := wordLane w 0 }
  | .eparam => { s with eparam := w.extractLsb' 0 16 }
  | .access => { s with access := wordLane w 0 }
  | .pwd0 => { s with pwd0 := w }
  | .pwd1 => { s with pwd1 := w.extractLsb' 0 16 }
  | .rxlen => if (wordLane w 0).toNat ≤ Config.rxCap then { s with rxlen := wordLane w 0 } else s
  | .rxdata k => { s with rx := writeRxLanes s.rx (4 * k) (wordBytes w) }
  | .status | .crc | .txlen | .caps | .val0 | .val1 | .val2 | .val3 | .txdata _ | .reserved => s

end Sys2Proof.Machine
end

