-- ==== Sys2Proof/Machine/Deserializer.lean ====
section
/-! DEFINITION. The deserializer's commands (spec/42_deserializer.md): one shared validation, then the shape's
fields. -/

namespace Sys2Proof.Machine

/-- VAL0..VAL3 as one value (spec/30_encoding.md R93). -/
structure Values where
  val0 : Word
  val1 : Word
  val2 : Word
  val3 : Word
  deriving DecidableEq, Repr

/-- Does the stored CRC, low byte first at RX[n-2] and RX[n-1], equal `c` (R160)? -/
def storedCrcIs (c : Half) (n : Nat) (s : State) : Bool :=
  rxByte s (n - 2) == c.extractLsb' 0 8 && rxByte s (n - 1) == c.extractLsb' 8 8

/-- A DEC.* that passes its checks (R164). -/
def decoded (v : Values) (s : State) : State :=
  complete .ok { s with val0 := v.val0, val1 := v.val1, val2 := v.val2, val3 := v.val3, dvalid := true }

/-- `validate` for a shape of `size` bytes, then the shape's values (R160, R164). -/
def decodeRx (size : Nat) (v : Values) (s : State) : State :=
  if s.rxlen.toNat ≠ size then complete .wrongSize s
  else if storedCrcIs (crc16 (rxBytes s (size - 2))) size s then
    decoded v { s with crc := crc16 (rxBytes s (size - 2)) }
  else complete .wrongCrc { s with crc := crc16 (rxBytes s (size - 2)) }

/-- DEC.STATUS (R170): the status byte whole, not masked (R168). -/
def execDecStatus (s : State) : Answer :=
  .next (decodeRx 4 ⟨(rxByte s 1).zeroExtend 32, 0, 0, 0⟩ s)

/-- DEC.SCALAR3 (R171). -/
def execDecScalar3 (s : State) : Answer := .next (decodeRx 6 ⟨rxField3 s 1, 0, 0, 0⟩ s)

/-- DEC.PHASE3 (R172). -/
def execDecPhase3 (s : State) : Answer :=
  .next (decodeRx 12 ⟨rxField3 s 1, rxField3 s 4, rxField3 s 7, 0⟩ s)

/-- DEC.SUMPHASE3 (R173). -/
def execDecSumphase3 (s : State) : Answer :=
  .next (decodeRx 15 ⟨rxField3 s 1, rxField3 s 4, rxField3 s 7, rxField3 s 10⟩ s)

/-- DEC.ENERGY4 (R174). -/
def execDecEnergy4 (s : State) : Answer :=
  .next (decodeRx 19 ⟨rxField4 s 1, rxField4 s 5, rxField4 s 9, rxField4 s 13⟩ s)

end Sys2Proof.Machine
end

