-- ==== Sys2Proof/Machine/Exchange.lean ====
section
/-! DEFINITION. The exchange controller: the channel's operations and XCHG, one block of rule R195 per controller step
(spec/43_exchange.md). -/

namespace Sys2Proof.Machine

/-- The channel's next answer to `ChanWrite` (R190, log entry 8). -/
def nextWrite (s : State) : WriteAnswer := s.chanWrites.headD (Config.chanWriteDraw s.draws)

/-- The channel's next answer to `ChanWaitReadable` (R190, log entry 8). -/
def nextWait (s : State) : WaitAnswer := s.chanWaits.headD (Config.chanWaitDraw s.draws)

/-- An answer to `ChanRead(max)` holds at most `max` bytes (R190). -/
def atMost (max : Nat) : ReadAnswer → ReadAnswer
  | .bytes r => .bytes (r.take max)
  | .err => .err

/-- The channel's next answer to `ChanRead(RX_CAP)` (R190, R199, log entry 8). -/
def nextRead (s : State) : ReadAnswer :=
  atMost Config.rxCap (s.chanReads.headD (Config.chanReadDraw s.draws))

/-- The SEND block for a frame (R195): `ok` hands the frame to the line. -/
def sendFrame (frame : List Byte) (s : State) : State :=
  match nextWrite s with
  | .ok =>
    { s with chanWrites := s.chanWrites.tail, sent := s.sent ++ [frame], xstate := .turn, timer := 0 }
  | .err => exchangeFailed .ioError { s with chanWrites := s.chanWrites.tail }

/-- The read of the WAIT block (R195): no byte is an IO_ERROR. -/
def endRead (a : ReadAnswer) (s : State) : State :=
  match a with
  | .bytes (b :: r) => receive (b :: r) s
  | .bytes [] => exchangeFailed .ioError s
  | .err => exchangeFailed .ioError s

/-- The WAIT block (R195). `expired` comes when P_TIMEOUT_MS have passed (R190, log entry 11). -/
def waitAndRead (s : State) : State :=
  match nextWait s with
  | .expired =>
    exchangeFailed .timeout { s with chanWaits := s.chanWaits.tail, timer := Config.timeoutMs }
  | .readable =>
    endRead (nextRead s) { s with chanWaits := s.chanWaits.tail, chanReads := s.chanReads.tail }

/-- The EXEC block (R195): no frame, no exchange. -/
def startExchange (s : State) : State :=
  if s.txlen = 0 then complete .noFrame s else { s with xstate := .send }

/-- XCHG (R195): the block of the controller state it has reached. The wait for P_TURN_MS in TURN is the controller's
guard (`controllerEnabled`, R198). -/
def execXchg (s : State) : Answer :=
  match s.xstate with
  | .idle => .next (startExchange s)
  | .exec => .next (startExchange s)
  | .send => .next (sendFrame (txFrame s) s)
  | .turn => .next { s with xstate := .wait, timer := 0 }
  | .wait => .next (waitAndRead s)

/-- The controller has an enabled step: a command is in progress (R224), and TURN has lasted P_TURN_MS (R195, R198). -/
def controllerEnabled (s : State) : Bool :=
  s.busy && (s.xstate != .turn || decide (Config.turnMs ≤ s.timer))

end Sys2Proof.Machine
end

