-- ==== Sys2Proof/Machine/Serializer.lean ====
section
/-! DEFINITION. The serializer's commands (spec/41_serializer.md): each builds the body of its rule and emits it. -/

namespace Sys2Proof.Machine

/-- ENC.PROBE (R131). -/
def execEncProbe (s : State) : Answer := .next (emit [s.devaddr, 0x00] s)

/-- ENC.OPEN (R132). -/
def execEncOpen (s : State) : Answer :=
  .next (emit
    [s.devaddr, 0x01, s.access, password s 0, password s 1, password s 2, password s 3, password s 4, password s 5] s)

/-- ENC.CLOSE (R133). -/
def execEncClose (s : State) : Answer := .next (emit [s.devaddr, 0x02] s)

/-- ENC.AUX (R134). -/
def execEncAux (s : State) : Answer := .next (emit [s.devaddr, 0x08, 0x16, s.subidx] s)

/-- ENC.ENERGY (R135). -/
def execEncEnergy (s : State) : Answer := .next (emit [s.devaddr, 0x05, periodMonth s, tariff s] s)

end Sys2Proof.Machine
end

