-- ==== Sys2Proof/WellFormed.lean ====
section
/-! DEFINITION. Which instructions are well formed: a word is an illegal command only if rule R82 does not call it legal
(spec/30_encoding.md). Every other operand may take every value. -/

namespace Sys2Proof

/-- The assigned opcodes (spec/30_encoding.md R83). -/
def opcodes : List Byte :=
  [0x01, 0x02, 0x10, 0x11, 0x12, 0x13, 0x14, 0x20, 0x21, 0x22, 0x23, 0x24, 0x30]

/-- Rule R82: an opcode of the map, RSV zero, and ARG zero unless the opcode is CRC.BYTE's. -/
def legalWord (w : Word) : Bool :=
  opcodes.contains (w.extractLsb' 0 8) && w.extractLsb' 16 16 == 0 &&
    (w.extractLsb' 8 8 == 0 || w.extractLsb' 0 8 == 0x02)

/-- The check on operands that the constructors' types do not make. -/
def wellFormed : Instr → Bool
  | .illegal w => !legalWord w
  | _ => true

end Sys2Proof
end

