-- ==== Sys2Proof/Decode.lean ====
section
/-! DEFINITION. The two encodings of spec/30_encoding.md, read and written: the command word of CMD (R81, R83) and the
frames of the wire (R87, R91). Decoding is total; a frame that is no row of the table is refused by name. -/

namespace Sys2Proof

open Sys2Proof.Machine

/-- Where encoded bytes are found: the command register, the TX buffer at SEND, or the channel's read at WAIT. -/
inductive Port where
  | command
  | request
  | response
  deriving DecidableEq, Repr

/-- Why bytes are no instruction of their port. -/
inductive DecodeError where
  /-- No row of the port has this many bytes. -/
  | wrongLength (n : Nat)
  /-- The last two bytes are not the CRC of the others (R66). -/
  | wrongCrc
  /-- Byte 1 of a request is no wire command of R86 with this length. -/
  | unknownWireCommand (c : Byte)
  /-- Byte 2 of a read-auxiliary request is not 0x16 (R86). -/
  | unknownParameterNumber (p : Byte)
  /-- Byte 3 of a read-auxiliary request is none of R90's sub-indices. -/
  | unlistedSubIndex (s : Byte)
  deriving DecidableEq, Repr

/-- The port an instruction's bytes are found at. -/
def portOf : Instr → Port
  | .crcInit | .crcByte _ | .encProbe | .encOpen | .encClose | .encAux | .encEnergy => .command
  | .decStatus | .decScalar3 | .decPhase3 | .decSumphase3 | .decEnergy4 => .command
  | .xchg | .illegal _ => .command
  | .wireRequestProbe _ | .wireRequestOpenSession .. | .wireRequestCloseSession _ => .request
  | .wireRequestReadVoltage _ | .wireRequestReadCurrent _ | .wireRequestReadAngle _ => .request
  | .wireRequestReadCosPhi _ | .wireRequestReadFrequency _ => .request
  | .wireRequestReadActivePower _ | .wireRequestReadReactivePower _ => .request
  | .wireRequestReadEnergyCounters .. => .request
  | .wireResponseStatus .. | .wireResponseScalar3 .. | .wireResponsePhase3 .. => .response
  | .wireResponseSumphase3 .. | .wireResponseEnergy4 .. => .response

/-- The opcodes that take no ARG (R83). -/
def decodeOpcode (w : Word) : Instr :=
  match (w.extractLsb' 0 8).toNat with
  | 0x01 => .crcInit
  | 0x10 => .encProbe
  | 0x11 => .encOpen
  | 0x12 => .encClose
  | 0x13 => .encAux
  | 0x14 => .encEnergy
  | 0x20 => .decStatus
  | 0x21 => .decScalar3
  | 0x22 => .decPhase3
  | 0x23 => .decSumphase3
  | 0x24 => .decEnergy4
  | 0x30 => .xchg
  | _ => .illegal w

/-- A word of CMD (R81 to R84): total, since every other word is an illegal command. -/
def decodeCommand (w : Word) : Instr :=
  if w.extractLsb' 16 16 ≠ 0 then .illegal w
  else if w.extractLsb' 0 8 = 0x02 then .crcByte (w.extractLsb' 8 8)
  else if w.extractLsb' 8 8 ≠ 0 then .illegal w
  else decodeOpcode w

/-- The read-auxiliary requests by sub-index (R90). -/
def decodeSubIndex (a s : Byte) : Except DecodeError Instr :=
  match s.toNat with
  | 0x11 => .ok (.wireRequestReadVoltage a)
  | 0x21 => .ok (.wireRequestReadCurrent a)
  | 0x51 => .ok (.wireRequestReadAngle a)
  | 0x30 => .ok (.wireRequestReadCosPhi a)
  | 0x40 => .ok (.wireRequestReadFrequency a)
  | 0x00 => .ok (.wireRequestReadActivePower a)
  | 0x08 => .ok (.wireRequestReadReactivePower a)
  | _ => .error (.unlistedSubIndex s)

/-- A request's body, its CRC taken off (R87). -/
def decodeRequestBody : List Byte → Except DecodeError Instr
  | [a, c] =>
    if c = 0x00 then .ok (.wireRequestProbe a)
    else if c = 0x02 then .ok (.wireRequestCloseSession a)
    else .error (.unknownWireCommand c)
  | [a, c, x, y] =>
    if c = 0x05 then .ok (.wireRequestReadEnergyCounters a x y)
    else if c = 0x08 then
      if x = 0x16 then decodeSubIndex a y else .error (.unknownParameterNumber x)
    else .error (.unknownWireCommand c)
  | [a, c, l, p0, p1, p2, p3, p4, p5] =>
    if c = 0x01 then .ok (.wireRequestOpenSession a l p0 p1 p2 p3 p4 p5)
    else .error (.unknownWireCommand c)
  | bs => .error (.wrongLength (bs.length + 2))

/-- A response's body, its CRC taken off: the length alone gives the shape (R91, R92). -/
def decodeResponseBody : List Byte → Except DecodeError Instr
  | [a, s] => .ok (.wireResponseStatus a s)
  | [a, x0, x1, x2] => .ok (.wireResponseScalar3 a ⟨x0, x1, x2⟩)
  | [a, x0, x1, x2, y0, y1, y2, z0, z1, z2] =>
    .ok (.wireResponsePhase3 a ⟨x0, x1, x2⟩ ⟨y0, y1, y2⟩ ⟨z0, z1, z2⟩)
  | [a, s0, s1, s2, x0, x1, x2, y0, y1, y2, z0, z1, z2] =>
    .ok (.wireResponseSumphase3 a ⟨s0, s1, s2⟩ ⟨x0, x1, x2⟩ ⟨y0, y1, y2⟩ ⟨z0, z1, z2⟩)
  | [a, s0, s1, s2, s3, x0, x1, x2, x3, y0, y1, y2, y3, z0, z1, z2, z3] =>
    .ok (.wireResponseEnergy4 a ⟨s0, s1, s2, s3⟩ ⟨x0, x1, x2, x3⟩ ⟨y0, y1, y2, y3⟩
      ⟨z0, z1, z2, z3⟩)
  | bs => .error (.wrongLength (bs.length + 2))

/-- The bytes of a frame before its CRC field. -/
def frameBody (bs : List Byte) : List Byte := bs.take (bs.length - 2)

/-- Does a frame end with the CRC of its body (R66)? -/
def crcMatches (bs : List Byte) : Bool := 2 ≤ bs.length && withCrc (frameBody bs) == bs

/-- The instruction that the bytes at a port encode. -/
def decode (p : Port) (bs : List Byte) : Except DecodeError Instr :=
  match p with
  | .command =>
    match bs with
    | [b0, b1, b2, b3] => .ok (decodeCommand (wordOfLanes b0 b1 b2 b3))
    | _ => .error (.wrongLength bs.length)
  | .request => if crcMatches bs then decodeRequestBody (frameBody bs) else .error .wrongCrc
  | .response => if crcMatches bs then decodeResponseBody (frameBody bs) else .error .wrongCrc

/-- The command word of opcode `op` and immediate `arg` (R81). -/
def commandWord (op arg : Byte) : Word := op.zeroExtend 32 ||| (arg.zeroExtend 32 <<< 8)

/-- The word that a command is written to CMD as (R83); 0, an illegal word, for a frame, which is no command. -/
def encodeCommand : Instr → Word
  | .crcInit => commandWord 0x01 0
  | .crcByte b => commandWord 0x02 b
  | .encProbe => commandWord 0x10 0
  | .encOpen => commandWord 0x11 0
  | .encClose => commandWord 0x12 0
  | .encAux => commandWord 0x13 0
  | .encEnergy => commandWord 0x14 0
  | .decStatus => commandWord 0x20 0
  | .decScalar3 => commandWord 0x21 0
  | .decPhase3 => commandWord 0x22 0
  | .decSumphase3 => commandWord 0x23 0
  | .decEnergy4 => commandWord 0x24 0
  | .xchg => commandWord 0x30 0
  | .illegal w => w
  | _ => 0

/-- The bytes of a 3-byte field. -/
def group3Bytes (g : Group3) : List Byte := [g.b0, g.b1, g.b2]

/-- The bytes of a 4-byte field. -/
def group4Bytes (g : Group4) : List Byte := [g.b0, g.b1, g.b2, g.b3]

/-- The bytes of an instruction: a command's four lanes, or a frame with its CRC (R81, R87, R91). -/
def encode : Instr → List Byte
  | .wireRequestProbe a => withCrc [a, 0x00]
  | .wireRequestOpenSession a l p0 p1 p2 p3 p4 p5 => withCrc [a, 0x01, l, p0, p1, p2, p3, p4, p5]
  | .wireRequestCloseSession a => withCrc [a, 0x02]
  | .wireRequestReadVoltage a => withCrc [a, 0x08, 0x16, 0x11]
  | .wireRequestReadCurrent a => withCrc [a, 0x08, 0x16, 0x21]
  | .wireRequestReadAngle a => withCrc [a, 0x08, 0x16, 0x51]
  | .wireRequestReadCosPhi a => withCrc [a, 0x08, 0x16, 0x30]
  | .wireRequestReadFrequency a => withCrc [a, 0x08, 0x16, 0x40]
  | .wireRequestReadActivePower a => withCrc [a, 0x08, 0x16, 0x00]
  | .wireRequestReadReactivePower a => withCrc [a, 0x08, 0x16, 0x08]
  | .wireRequestReadEnergyCounters a pm t => withCrc [a, 0x05, pm, t]
  | .wireResponseStatus a s => withCrc [a, s]
  | .wireResponseScalar3 a v => withCrc (a :: group3Bytes v)
  | .wireResponsePhase3 a x y z => withCrc (a :: group3Bytes x ++ group3Bytes y ++ group3Bytes z)
  | .wireResponseSumphase3 a s x y z =>
    withCrc (a :: group3Bytes s ++ group3Bytes x ++ group3Bytes y ++ group3Bytes z)
  | .wireResponseEnergy4 a s x y z =>
    withCrc (a :: group4Bytes s ++ group4Bytes x ++ group4Bytes y ++ group4Bytes z)
  | i => wordBytes (encodeCommand i)

/-- `n` bytes of `w`, the least significant first: the numbering of spec/opcode_table.json (bit 0 of the table's
`encoding` is the least significant bit of the first byte). -/
def tableBytes : Nat → Nat → List Byte
  | 0, _ => []
  | n + 1, w => BitVec.ofNat 8 w :: tableBytes n (w / 256)

/-- A row of the wire: a request of the table if the bytes are one, else a response (log entry 13). -/
def decodeWire (bs : List Byte) : Option Instr :=
  match decode .request bs, decode .response bs with
  | .ok i, _ => some i
  | _, .ok i => some i
  | _, _ => none

/-- The instruction of a table word: a legal command word; else a frame of the wire of just those bytes; else, for up to
32 bits, an illegal command word (log entry 13). Bits above `nbits` read as 0. -/
def decodeTableWord (nbits w : Nat) : Option Instr :=
  if nbits ≤ 32 then
    match decodeCommand (BitVec.ofNat 32 (w % 2 ^ nbits)) with
    | .illegal x => some ((decodeWire (tableBytes 4 (w % 2 ^ nbits))).getD (.illegal x))
    | i => some i
  else decodeWire (tableBytes ((nbits + 7) / 8) (w % 2 ^ nbits))

end Sys2Proof
end

