-- ==== Sys2Proof/Machine/Wire.lean ====
section
/-! DEFINITION. The frames of the wire (spec/30_encoding.md R87, R91) as rows of the opcode table: a request frame is
what the exchange controller writes to the channel (SEND), a response frame is what the channel's read returns (WAIT):
spec/43_exchange.md R195, R199; log entry 12. -/

namespace Sys2Proof.Machine

/-- The channel is found readable and its read returns the frame (spec/43_exchange.md R195, R199). -/
def deliver (frame : List Byte) (s : State) : State :=
  receive frame { s with chanWaits := s.chanWaits.tail, chanReads := s.chanReads.tail }

/-- Probe request (R87). -/
def execWireRequestProbe (a : Byte) (s : State) : Answer := .next (sendFrame (withCrc [a, 0x00]) s)

/-- Open-session request (R87, R89). -/
def execWireRequestOpenSession (a l p0 p1 p2 p3 p4 p5 : Byte) (s : State) : Answer :=
  .next (sendFrame (withCrc [a, 0x01, l, p0, p1, p2, p3, p4, p5]) s)

/-- Close-session request (R87). -/
def execWireRequestCloseSession (a : Byte) (s : State) : Answer :=
  .next (sendFrame (withCrc [a, 0x02]) s)

/-- Read voltage (R87, R90). -/
def execWireRequestReadVoltage (a : Byte) (s : State) : Answer :=
  .next (sendFrame (withCrc [a, 0x08, 0x16, 0x11]) s)

/-- Read current (R87, R90). -/
def execWireRequestReadCurrent (a : Byte) (s : State) : Answer :=
  .next (sendFrame (withCrc [a, 0x08, 0x16, 0x21]) s)

/-- Read angle (R87, R90). -/
def execWireRequestReadAngle (a : Byte) (s : State) : Answer :=
  .next (sendFrame (withCrc [a, 0x08, 0x16, 0x51]) s)

/-- Read cos(φ) (R87, R90). -/
def execWireRequestReadCosPhi (a : Byte) (s : State) : Answer :=
  .next (sendFrame (withCrc [a, 0x08, 0x16, 0x30]) s)

/-- Read frequency (R87, R90). -/
def execWireRequestReadFrequency (a : Byte) (s : State) : Answer :=
  .next (sendFrame (withCrc [a, 0x08, 0x16, 0x40]) s)

/-- Read active power (R87, R90). -/
def execWireRequestReadActivePower (a : Byte) (s : State) : Answer :=
  .next (sendFrame (withCrc [a, 0x08, 0x16, 0x00]) s)

/-- Read reactive power (R87, R90). -/
def execWireRequestReadReactivePower (a : Byte) (s : State) : Answer :=
  .next (sendFrame (withCrc [a, 0x08, 0x16, 0x08]) s)

/-- Read energy counters (R87, R88). -/
def execWireRequestReadEnergyCounters (a pm t : Byte) (s : State) : Answer :=
  .next (sendFrame (withCrc [a, 0x05, pm, t]) s)

/-- STATUS response (R91). -/
def execWireResponseStatus (a st : Byte) (s : State) : Answer := .next (deliver (withCrc [a, st]) s)

/-- SCALAR3 response (R91). -/
def execWireResponseScalar3 (a : Byte) (v : Group3) (s : State) : Answer :=
  .next (deliver (withCrc (a :: group3Bytes v)) s)

/-- PHASE3 response (R91). -/
def execWireResponsePhase3 (a : Byte) (p1 p2 p3 : Group3) (s : State) : Answer :=
  .next (deliver (withCrc (a :: group3Bytes p1 ++ group3Bytes p2 ++ group3Bytes p3)) s)

/-- SUMPHASE3 response (R91). -/
def execWireResponseSumphase3 (a : Byte) (sum p1 p2 p3 : Group3) (s : State) : Answer :=
  .next (deliver
    (withCrc (a :: group3Bytes sum ++ group3Bytes p1 ++ group3Bytes p2 ++ group3Bytes p3)) s)

/-- ENERGY4 response (R91). -/
def execWireResponseEnergy4 (a : Byte) (ap am rp rm : Group4) (s : State) : Answer :=
  .next (deliver
    (withCrc (a :: group4Bytes ap ++ group4Bytes am ++ group4Bytes rp ++ group4Bytes rm)) s)

end Sys2Proof.Machine
end

