-- ==== Sys2Proof/Machine/Dispatch.lean ====
section
/-! DEFINITION. One arm per row of spec/opcode_table.json. -/

namespace Sys2Proof.Machine

def exec (i : Instr) (s : State) : Host.Outcome State Fault Refusal :=
  match i with
  | .crcInit => Sys2Proof.Machine.execCrcInit s
  | .crcByte b => Sys2Proof.Machine.execCrcByte b s
  | .encProbe => Sys2Proof.Machine.execEncProbe s
  | .encOpen => Sys2Proof.Machine.execEncOpen s
  | .encClose => Sys2Proof.Machine.execEncClose s
  | .encAux => Sys2Proof.Machine.execEncAux s
  | .encEnergy => Sys2Proof.Machine.execEncEnergy s
  | .decStatus => Sys2Proof.Machine.execDecStatus s
  | .decScalar3 => Sys2Proof.Machine.execDecScalar3 s
  | .decPhase3 => Sys2Proof.Machine.execDecPhase3 s
  | .decSumphase3 => Sys2Proof.Machine.execDecSumphase3 s
  | .decEnergy4 => Sys2Proof.Machine.execDecEnergy4 s
  | .xchg => Sys2Proof.Machine.execXchg s
  | .illegal w => Sys2Proof.Machine.execIllegal w s
  | .wireRequestProbe a => Sys2Proof.Machine.execWireRequestProbe a s
  | .wireRequestOpenSession a l p0 p1 p2 p3 p4 p5 => Sys2Proof.Machine.execWireRequestOpenSession a l p0 p1 p2 p3 p4 p5 s
  | .wireRequestCloseSession a => Sys2Proof.Machine.execWireRequestCloseSession a s
  | .wireRequestReadVoltage a => Sys2Proof.Machine.execWireRequestReadVoltage a s
  | .wireRequestReadCurrent a => Sys2Proof.Machine.execWireRequestReadCurrent a s
  | .wireRequestReadAngle a => Sys2Proof.Machine.execWireRequestReadAngle a s
  | .wireRequestReadCosPhi a => Sys2Proof.Machine.execWireRequestReadCosPhi a s
  | .wireRequestReadFrequency a => Sys2Proof.Machine.execWireRequestReadFrequency a s
  | .wireRequestReadActivePower a => Sys2Proof.Machine.execWireRequestReadActivePower a s
  | .wireRequestReadReactivePower a => Sys2Proof.Machine.execWireRequestReadReactivePower a s
  | .wireRequestReadEnergyCounters a pm t => Sys2Proof.Machine.execWireRequestReadEnergyCounters a pm t s
  | .wireResponseStatus a st => Sys2Proof.Machine.execWireResponseStatus a st s
  | .wireResponseScalar3 a v => Sys2Proof.Machine.execWireResponseScalar3 a v s
  | .wireResponsePhase3 a p1 p2 p3 => Sys2Proof.Machine.execWireResponsePhase3 a p1 p2 p3 s
  | .wireResponseSumphase3 a sum p1 p2 p3 => Sys2Proof.Machine.execWireResponseSumphase3 a sum p1 p2 p3 s
  | .wireResponseEnergy4 a ap am rp rm => Sys2Proof.Machine.execWireResponseEnergy4 a ap am rp rm s

end Sys2Proof.Machine
end

