-- ==== Sys2Proof/Machine/HostInterface.lean ====
section
/-! DEFINITION. The host's accesses to the register window (spec/20_memory.md R60 to R64, R69;
spec/60_exceptions.md R220) and the timer's move (spec/43_exchange.md R198). -/

namespace Sys2Proof.Machine

/-- The bus address of a register: `MFE_BASE + offset` (spec/20_memory.md R60). -/
def busAddress (off : Nat) : Nat := Config.mfeBase + off

/-- The offset of a bus address, if it lies in the window (spec/20_memory.md R60). -/
def windowOffset (address : Nat) : Option Nat :=
  if Config.mfeBase ≤ address ∧ address < Config.mfeBase + Config.winSize then
    some (address - Config.mfeBase)
  else none

/-- Is the access 32 bits wide at a multiple of 4 (spec/20_memory.md R61)? -/
def supportedAccess (off width : Nat) : Bool := width == 32 && off % 4 == 0

/-- `RegWrite(off, w)`: while BUSY = 1 only CMD is looked at, and the word is dropped (R63, R220). -/
def regWrite (off : Nat) (w : Word) (s : State) : State :=
  if s.busy then
    match regAt off with
    | .cmd => dropCommand s
    | _ => s
  else writeReg w s (regAt off)

/-- The host has read a register: the value goes to the host, and no register changes (R62). -/
def observe (r : Reg) (s : State) : State := { s with hostReads := s.hostReads ++ [readReg s r] }

/-- A host read at a bus address. -/
def hostRead (address width : Nat) (s : State) : Answer :=
  match windowOffset address with
  | none => .fault (.outsideWindow address)
  | some off =>
    if supportedAccess off width then .next (observe (regAt off) s)
    else .refused (.unsupportedAccess off width)

/-- A host write at a bus address. -/
def hostWrite (address width : Nat) (w : Word) (s : State) : Answer :=
  match windowOffset address with
  | none => .fault (.outsideWindow address)
  | some off =>
    if supportedAccess off width then .next (regWrite off w s)
    else .refused (.unsupportedAccess off width)

/-- The value of the host's last read. -/
def lastRead (s : State) : Word := s.hostReads.getLastD 0

/-- One round of POLL: a read of STATUS, after which the host goes on only if it has seen DONE = 1
(spec/30_encoding.md R96). -/
def pollOnce (rest : List HostInstr) (s : State) : State :=
  if (readReg s .status).getLsbD 1 then { observe .status s with program := rest }
  else observe .status s

/-- The host executes the next instruction of its program (spec/30_encoding.md R95, R96). -/
def hostTurn (s : State) : Answer :=
  match s.program with
  | [] => .next s
  | .read address width :: rest => hostRead address width { s with program := rest }
  | .write address width w :: rest => hostWrite address width w { s with program := rest }
  | .poll :: rest => .next (pollOnce rest s)
  | .unlessOkSkip n :: rest =>
    .next { s with
      program := if (lastRead s).extractLsb' 4 4 = resultBits .ok then rest else rest.drop n }

/-- `ms` milliseconds pass: TIMER counts in TURN and WAIT, up to the bound of the state, at which the controller's step
comes (spec/43_exchange.md R198, log entry 11). -/
def timePasses (ms : Nat) (s : State) : State :=
  match s.xstate with
  | .turn => { s with timer := min (s.timer + ms) Config.turnMs }
  | .wait => { s with timer := min (s.timer + ms) Config.timeoutMs }
  | _ => s

end Sys2Proof.Machine
end

