-- ==== Sys2Proof/Machine/Control.lean ====
section
/-! DEFINITION. Which agent moves and what its move does (spec/00_scope.md R5, spec/20_memory.md R69, R70): the moves of
the schedule in order; with none left, the controller, or the timer in TURN, or nobody (log entries 6, 7). And the
placing of an instruction where the next step performs it (log entry 16). -/

namespace Sys2Proof.Machine

/-- The command in progress: PENDING, decoded when it is performed and not at acceptance (spec/60_exceptions.md R220). -/
def currentInstr (s : State) : Instr := decodeCommand s.pending

/-- The controller's step, if one is enabled; else nothing happens (spec/60_exceptions.md R224). -/
def controllerStep (s : State) : Answer :=
  if controllerEnabled s then exec (currentInstr s) s else .next s

/-- The state a step starts in: its move taken off the schedule, a fresh draw for its free values (log entry 14). -/
def stepStart (s : State) : State := { s with schedule := s.schedule.tail, draws := s.draws + 1 }

/-- One move of the schedule. -/
def performMove (m : Move) (s : State) : Answer :=
  match m with
  | .controller => controllerStep s
  | .tick ms => .next (timePasses ms s)
  | .host => hostTurn s
  | .reset => .next (resetMachine s)

/-- The move of an empty schedule: the controller's if enabled; else, with a command in progress, the timer's, which
ends the turnaround delay; else the host's (spec/43_exchange.md R198, log entry 7). -/
def unscheduledMove (s : State) : Answer :=
  if controllerEnabled s then exec (currentInstr s) s
  else if s.busy then .next (timePasses Config.turnMs s)
  else hostTurn s

/-- One step of the system. -/
def runStep (s : State) : Answer :=
  match s.schedule with
  | [] => unscheduledMove (stepStart s)
  | m :: _ => performMove m (stepStart s)

/-- `s` with a command word just accepted, the controller to move next. -/
def placeCommand (s : State) (w : Word) : State :=
  { accept w s with schedule := .controller :: s.schedule }

/-- `s` in an exchange that has reached `x`, the controller to move next. -/
def placeExchange (s : State) (x : XState) : State :=
  { placeCommand s 0x00000030 with xstate := x }

/-- `s` with an instruction where the controller's next step performs it: a command in PENDING, a request frame in TX
at SEND, a response frame as the channel's coming read at WAIT (log entry 16). -/
def placeInstr (s : State) (i : Instr) : State :=
  match portOf i with
  | .command => placeCommand s (encodeCommand i)
  | .request =>
    { placeExchange s .send with
      tx := memWriteBytes s.tx 0 (encode i)
      txlen := BitVec.ofNat 8 (encode i).length }
  | .response =>
    { placeExchange s .wait with
      chanWaits := .readable :: s.chanWaits
      chanReads := .bytes (encode i) :: s.chanReads }

/-- `withFetchWord` of the host interface: the instruction the table word decodes to, placed; a word that decodes to
none is written to CMD as it is. -/
def placeTableWord (s : State) (nbits w : Nat) : State :=
  match decodeTableWord nbits w with
  | some i => placeInstr s i
  | none => placeCommand s (BitVec.ofNat 32 (w % 2 ^ nbits))

end Sys2Proof.Machine
end

