-- ==== Sys2Proof/Machine/Step.lean ====
section
/-! DEFINITION. One step of the MFE and the agents around it, and the placing of one instruction for the host. -/

namespace Sys2Proof.Machine

/-- One step: see `runStep`. -/
def step (s : State) : Host.Outcome State Fault Refusal := runStep s

/-- `s` with the instruction of a table word where the next step performs it: see `placeTableWord`. -/
def State.withFetchWord (s : State) (nbits w : Nat) : State := placeTableWord s nbits w

end Sys2Proof.Machine
end

