-- ==== Sys2Proof/Machine/HostProgram.lean ====
section
/-! DEFINITION. The host's assembler syntax (spec/30_encoding.md R95, R96) as programs of the host, and the table of
readings (R90) with the physical value of a decoded field (spec/42_deserializer.md R162). -/

namespace Sys2Proof.Machine

/-- The offset of a register (spec/10_state.md R22); for `reserved`, the first reserved offset. -/
def regOffset : Reg → Nat
  | .cmd => 0x000
  | .status => 0x004
  | .devaddr => 0x008
  | .subidx => 0x00C
  | .eparam => 0x010
  | .access => 0x014
  | .pwd0 => 0x018
  | .pwd1 => 0x01C
  | .crc => 0x020
  | .txlen => 0x024
  | .rxlen => 0x028
  | .caps => 0x02C
  | .val0 => 0x030
  | .val1 => 0x034
  | .val2 => 0x038
  | .val3 => 0x03C
  | .txdata j => 0x080 + 4 * j
  | .rxdata k => 0x100 + 4 * k
  | .reserved => 0x040

/-- `WR <reg>, <imm32>` (R95). -/
def wr (r : Reg) (w : Word) : HostInstr := .write (busAddress (regOffset r)) 32 w

/-- `RD <reg>` (R95). -/
def rd (r : Reg) : HostInstr := .read (busAddress (regOffset r)) 32

/-- `<mnemonic>` and `CRC.BYTE <imm8>`: the command's word, written to CMD (R95). -/
def issue (i : Instr) : HostInstr := wr .cmd (encodeCommand i)

/-- `DO <mnemonic>` (R96). -/
def doCommand (i : Instr) : List HostInstr := [issue i, .poll]

/-- `CRC.SEQ b0, ..., bk` (R96). -/
def crcSeq (bs : List Byte) : List HostInstr :=
  doCommand .crcInit ++ bs.flatMap fun b => doCommand (.crcByte b)

/-- The reading kinds of R90. -/
inductive Reading where
  | voltage
  | current
  | angle
  | cosPhi
  | frequency
  | activePower
  | reactivePower
  | energy
  deriving DecidableEq, Repr

/-- The sub-index of a reading; energy counters have none (R90). -/
def readingSubIndex : Reading → Option Byte
  | .voltage => some 0x11
  | .current => some 0x21
  | .angle => some 0x51
  | .cosPhi => some 0x30
  | .frequency => some 0x40
  | .activePower => some 0x00
  | .reactivePower => some 0x08
  | .energy => none

/-- The command that builds a reading's request (R90). -/
def readingRequest : Reading → Instr
  | .voltage | .current | .angle | .cosPhi | .frequency | .activePower | .reactivePower => .encAux
  | .energy => .encEnergy

/-- `ENC.READ <kind>` (R96), for the kinds that have a sub-index. -/
def encRead (k : Reading) : Option (List HostInstr) :=
  (readingSubIndex k).map fun sub => wr .subidx (sub.zeroExtend 32) :: doCommand .encAux

/-- `ENC.ENERGY p, m, t` (R96): the fields' widths are the bounds p, m <= 15 and t <= 255. -/
def encEnergyOf (p m : BitVec 4) (t : Byte) : List HostInstr :=
  wr .eparam ((t.zeroExtend 32 <<< 8) + (p.zeroExtend 32 <<< 4) + m.zeroExtend 32) ::
    doCommand .encEnergy

/-- The RXDATA writes of LOADRX: four bytes a word, 0 in the lanes past the last byte (R96). -/
def loadRxWords (k : Nat) : List Byte → List HostInstr
  | [] => []
  | b0 :: b1 :: b2 :: b3 :: bs => wr (.rxdata k) (wordOfLanes b0 b1 b2 b3) :: loadRxWords (k + 1) bs
  | [b0, b1, b2] => [wr (.rxdata k) (wordOfLanes b0 b1 b2 0)]
  | [b0, b1] => [wr (.rxdata k) (wordOfLanes b0 b1 0 0)]
  | [b0] => [wr (.rxdata k) (wordOfLanes b0 0 0 0)]

/-- `LOADRX b0, ..., bk` (R96). -/
def loadRx (bs : List Byte) : List HostInstr :=
  loadRxWords 0 bs ++ [wr .rxlen (BitVec.ofNat 32 bs.length)]

/-- `TRANSACT <enc>, <dec>` (R96): `DO <dec>` only if the STATUS read after the exchange has RESULT = OK. -/
def transact (enc dec : Instr) : List HostInstr :=
  doCommand enc ++ doCommand .xchg ++ [rd .status, .unlessOkSkip (doCommand dec).length] ++
    doCommand dec

/-- The decoder of a reading's response (R90). -/
def readingDecoder : Reading → Instr
  | .voltage | .current | .angle => .decPhase3
  | .cosPhi | .activePower | .reactivePower => .decSumphase3
  | .frequency => .decScalar3
  | .energy => .decEnergy4

/-- The scale of a reading (R90). -/
def readingScale : Reading → Nat
  | .voltage | .angle | .frequency | .activePower | .reactivePower => 100
  | .current | .cosPhi | .energy => 1000

/-- The physical value of a decoded field: the exact rational `VALi / scale` (spec/42_deserializer.md R162). -/
def physicalValue (k : Reading) (v : Word) : ℚ := (v.toNat : ℚ) / (readingScale k : ℚ)

end Sys2Proof.Machine
end

