-- ==== Sys2Proof/Safety.lean ====
section
/-! DEFINITION. The terms that claims use: what a frame of the wire is, what a buffer holds, the invariant of the
machine, the duties of the host, the end of a run. -/

namespace Sys2Proof.Machine

/-- The bodies of the five request kinds (spec/30_encoding.md R87). -/
inductive RequestBody : List Byte → Prop where
  | probe (a : Byte) : RequestBody [a, 0x00]
  | openSession (a l p0 p1 p2 p3 p4 p5 : Byte) : RequestBody [a, 0x01, l, p0, p1, p2, p3, p4, p5]
  | closeSession (a : Byte) : RequestBody [a, 0x02]
  | auxiliary (a sub : Byte) : RequestBody [a, 0x08, 0x16, sub]
  | energy (a pm t : Byte) : RequestBody [a, 0x05, pm, t]

/-- A request frame: a body of R87 and its CRC. -/
def RequestFrame (f : List Byte) : Prop := ∃ body, RequestBody body ∧ f = withCrc body

/-- Buffer `m` is buffer `m₀` with the bytes of `f` in its first cells: a cell reads as `f` gives it below the length
of `f`, and as in `m₀` from there on. -/
def HoldsFrame (f : List Byte) (m m₀ : Memory) : Prop :=
  ∀ i, memRead m i = if i < f.length then f[i]? else memRead m₀ i

/-- The TX buffer holds frame `f` as its request: TXLEN is its length and TX[0..TXLEN) its bytes. -/
def TxHolds (f : List Byte) (s : State) : Prop :=
  s.txlen.toNat = f.length ∧ ∀ i, i < f.length → memRead s.tx i = f[i]?

/-- The RX buffer holds frame `f` as its response: RXLEN is its length and RX[0..RXLEN) its bytes. -/
def RxHolds (f : List Byte) (s : State) : Prop :=
  s.rxlen.toNat = f.length ∧ ∀ i, i < f.length → memRead s.rx i = f[i]?

/-- The expected size of a DEC.* command's shape (spec/30_encoding.md R92). -/
def shapeSize : Instr → Option Nat
  | .decStatus => some 4
  | .decScalar3 => some 6
  | .decPhase3 => some 12
  | .decSumphase3 => some 15
  | .decEnergy4 => some 19
  | _ => none

/-- The controller is inside an exchange that has a frame to send (spec/43_exchange.md R196). -/
def exchanging : XState → Bool
  | .send | .turn | .wait => true
  | .idle | .exec => false

/-- What holds of the MFE at reset and after every step. -/
structure Invariant (s : State) : Prop where
  /-- The TX buffer keeps its canonical form, -/
  txWf : Memory.wf s.tx
  /-- within its 11 cells (spec/10_state.md R40). -/
  txBound : ∀ c ∈ s.tx, c.1 < Config.txCap
  /-- The RX buffer keeps its canonical form, -/
  rxWf : Memory.wf s.rx
  /-- within its RX_CAP cells (R41). -/
  rxBound : ∀ c ∈ s.rx, c.1 < Config.rxCap
  /-- RXLEN is at most RX_CAP (R38). -/
  rxlenBound : s.rxlen.toNat ≤ Config.rxCap
  /-- TXLEN is 0, or TX[0..TXLEN) is a request frame with its CRC (R37, spec/30_encoding.md R94). -/
  txFrame : s.txlen = 0 ∨ ∃ f, RequestFrame f ∧ TxHolds f s
  /-- Only request frames have left the MFE (spec/30_encoding.md R94). -/
  sentFrames : ∀ f ∈ s.sent, RequestFrame f
  /-- BUSY = 1 exactly while XSTATE is not IDLE (R25, R30). -/
  busyState : s.busy = true ↔ s.xstate ≠ .idle
  /-- DONE = 1 only while no command is in progress (R26). -/
  doneIdle : s.done = true → s.busy = false
  /-- DVALID = 1 only after a completion with OK (R27). -/
  dvalidDone : s.dvalid = true → s.done = true ∧ s.result = .ok
  /-- SEND, TURN and WAIT belong to an XCHG with a frame (spec/43_exchange.md R196). -/
  exchange : exchanging s.xstate = true → s.pending = 0x00000030 ∧ s.txlen ≠ 0
  /-- TIMER does not pass the bound of its state (spec/43_exchange.md R198). -/
  timerTurn : s.xstate = .turn → s.timer ≤ Config.turnMs
  timerWait : s.xstate = .wait → s.timer ≤ Config.timeoutMs

/-- An act of the host that its program does not hold: asserting reset (spec/70_reset_and_hazards.md R269). -/
def Move.isReset : Move → Bool
  | .reset => true
  | .controller | .tick _ | .host => false

/-- The end of a run (spec/70_reset_and_hazards.md R268): the host has executed its last instruction, no reset is to
come, and BUSY = 0; controller, timer and host may still have moves, which then do nothing. -/
def State.runEnded (s : State) : Bool := s.program.isEmpty && !s.schedule.any Move.isReset && !s.busy

/-- It is the host's turn: `h` is next in its program and `more` follows, and the next move is the host's, by the
schedule, of which `rest` is left, or by default in IDLE (log entry 7). -/
def HostTurn (h : HostInstr) (more : List HostInstr) (rest : List Move) (s : State) : Prop :=
  s.program = h :: more ∧
    (s.schedule = .host :: rest ∨ s.schedule = [] ∧ rest = [] ∧ s.busy = false)

/-- The bookkeeping of a turn of the host: its instruction and its move are used up, and the draw counter goes on. -/
def afterTurn (more : List HostInstr) (rest : List Move) (s : State) : State :=
  { s with program := more, schedule := rest, draws := s.draws + 1 }

/-- The controller's step, taken in this state, completes the command in progress: a one-step command, or XCHG at
NO_FRAME, at a failed write, or in WAIT (spec/43_exchange.md R196). -/
def CompletesNow (s : State) : Prop :=
  (s.xstate = .exec ∧ (decodeCommand s.pending ≠ .xchg ∨ s.txlen = 0)) ∨
    (decodeCommand s.pending = .xchg ∧ (s.xstate = .send ∧ nextWrite s = .err ∨ s.xstate = .wait))

/-- Every parameter register is as before. -/
def SameParameters (s t : State) : Prop :=
  t.devaddr = s.devaddr ∧ t.subidx = s.subidx ∧ t.eparam = s.eparam ∧ t.access = s.access ∧
    t.pwd0 = s.pwd0 ∧ t.pwd1 = s.pwd1

/-- VAL0 to VAL3 are as before. -/
def SameValues (s t : State) : Prop :=
  t.val0 = s.val0 ∧ t.val1 = s.val1 ∧ t.val2 = s.val2 ∧ t.val3 = s.val3

/-- `w₀` is the one word that decodes to `i`: every other word with its opcode is illegal (spec/30_encoding.md R82), and
performing it completes with ILLEGAL_OP and changes nothing else (spec/60_exceptions.md R223). -/
def OnlyWord (w₀ : Word) (i : Instr) : Prop :=
  decodeCommand w₀ = i ∧
    ∀ w : Word, w.extractLsb' 0 8 = w₀.extractLsb' 0 8 → w ≠ w₀ →
      decodeCommand w = .illegal w ∧
      ∀ s : State,
        exec (decodeCommand w) s = .next
          { s with result := .illegalOp, busy := false, done := true, xstate := .idle }

/-- `i` emits the body that `body` gives for the state (spec/41_serializer.md R130): a TX frame of `n` bytes that ends
with the CRC of its body, low byte first; TXLEN, CRC and STATUS; and nothing else. -/
def EmitsBody (i : Instr) (n : Byte) (body : State → List Byte) : Prop :=
  ∀ s : State, ∃ m : Memory,
    exec i s = .next
      { s with
        tx := m, txlen := n, crc := crc16 (body s)
        result := .ok, busy := false, done := true, xstate := .idle } ∧
    n.toNat = (body s).length + 2 ∧
    HoldsFrame
      (body s ++ [(crc16 (body s)).extractLsb' 0 8, (crc16 (body s)).extractLsb' 8 8]) m s.tx

/-- The CRC stored in the last two of `n` response bytes, low byte first, is `c` (spec/42_deserializer.md R160). -/
def StoredCrc (c : Half) (n : Nat) (s : State) : Prop :=
  rxByte s (n - 2) = c.extractLsb' 0 8 ∧ rxByte s (n - 1) = c.extractLsb' 8 8

/-- `i` validates a response of `n` bytes and then gives VAL0 to VAL3 the values of `v` (spec/42_deserializer.md R160,
R164): WRONG_SIZE changes nothing but STATUS; WRONG_CRC also leaves the recomputed CRC; OK writes the values. -/
def Decodes (i : Instr) (n : Nat) (v : State → Values) : Prop :=
  ∀ s : State,
    (s.rxlen.toNat ≠ n →
      exec i s = .next
        { s with result := .wrongSize, busy := false, done := true, xstate := .idle }) ∧
    (s.rxlen.toNat = n → ¬ StoredCrc (crc16 (rxBytes s (n - 2))) n s →
      exec i s = .next
        { s with
          crc := crc16 (rxBytes s (n - 2))
          result := .wrongCrc, busy := false, done := true, xstate := .idle }) ∧
    (s.rxlen.toNat = n → StoredCrc (crc16 (rxBytes s (n - 2))) n s →
      exec i s = .next
        { s with
          crc := crc16 (rxBytes s (n - 2))
          val0 := (v s).val0, val1 := (v s).val1, val2 := (v s).val2, val3 := (v s).val3
          dvalid := true
          result := .ok, busy := false, done := true, xstate := .idle })

/-- `i` writes frame `f` to the channel (spec/43_exchange.md R195 SEND, R196): taken with `ok`, it is on the line and the
turnaround begins; with `err`, the exchange ends with IO_ERROR. -/
def SendsFrame (i : Instr) (f : List Byte) : Prop :=
  ∀ (s : State) (ws : List WriteAnswer),
    (s.chanWrites = .ok :: ws →
      exec i s = .next
        { s with chanWrites := ws, sent := s.sent ++ [f], xstate := .turn, timer := 0 }) ∧
    (s.chanWrites = .err :: ws →
      exec i s = .next
        { s with
          chanWrites := ws, rxlen := 0
          result := .ioError, busy := false, done := true, xstate := .idle })

/-- `i` is the arrival of frame `f` as the channel's read (spec/43_exchange.md R199): RX and RXLEN hold it, the exchange
ends with OK, and nothing else changes but the channel's answers, which are used up. -/
def ReceivesFrame (i : Instr) (f : List Byte) : Prop :=
  ∀ s : State, ∃ m : Memory,
    exec i s = .next
      { s with
        rx := m, rxlen := BitVec.ofNat 8 f.length
        chanWaits := s.chanWaits.tail, chanReads := s.chanReads.tail
        result := .ok, busy := false, done := true, xstate := .idle } ∧
    HoldsFrame f m s.rx

/-- The commands of the serializer (spec/41_serializer.md). -/
def isSerializer : Instr → Bool
  | .encProbe | .encOpen | .encClose | .encAux | .encEnergy => true
  | _ => false

end Sys2Proof.Machine
end

