-- ==== Sys2Proof/Certificates/Slice0/Obligations.lean ====
section
/-! DEFINITION. The statements for the provers, from the numbered rules of spec/. -/

open Sys2Proof Sys2Proof.Machine

/-! Encodings. -/

/-- Words and frames written out from spec/30_encoding.md R83, R87, R91. -/
def Obligations.WrittenOutEncodingsDecode : Prop :=
  decodeCommand 0x00000001 = .crcInit ∧ decodeCommand 0x0000FF02 = .crcByte 0xFF ∧
  decodeCommand 0x00000014 = .encEnergy ∧ decodeCommand 0x00000024 = .decEnergy4 ∧
  decodeCommand 0x00000030 = .xchg ∧ decodeCommand 0x00000000 = .illegal 0x00000000 ∧
  decode .request [0x00, 0x00, 0x01, 0xB0] = .ok (.wireRequestProbe 0x00) ∧
  decode .response [0x00, 0x00, 0x88, 0x13, 0x27, 0xE9] =
    .ok (.wireResponseScalar3 0x00 ⟨0x00, 0x88, 0x13⟩)

/-- Decoding the encoding of a well-formed instruction gives it back, every operand with it. -/
def Obligations.DecodeAfterEncode : Prop :=
  ∀ i : Instr, wellFormed i = true → decode (portOf i) (encode i) = .ok i

/-- Bytes that decode to an instruction are its encoding, at its port: no two byte strings share a meaning. -/
def Obligations.EncodeAfterDecode : Prop :=
  ∀ (p : Port) (bs : List Byte) (i : Instr),
    decode p bs = .ok i → portOf i = p ∧ wellFormed i = true ∧ encode i = bs

/-- R82: which words are legal; an illegal one is accepted like a legal one, and completes with ILLEGAL_OP. -/
def Obligations.LegalityOfCommandWords : Prop :=
  ∀ w : Word,
    ((w.extractLsb' 0 8 ∈ ([0x01, 0x02, 0x10, 0x11, 0x12, 0x13, 0x14, 0x20, 0x21, 0x22, 0x23, 0x24,
          0x30] : List Byte) ∧
        w.extractLsb' 16 16 = 0 ∧ (w.extractLsb' 8 8 = 0 ∨ w.extractLsb' 0 8 = 0x02)) ↔
      decodeCommand w ≠ .illegal w) ∧
    ∀ (s : State) (more : List HostInstr) (rest : List Move),
      decodeCommand w = .illegal w → s.busy = false →
      s.program = .write (busAddress 0x000) 32 w :: more →
      s.schedule = .host :: .controller :: rest →
      Host.Core.run core 2 s = .next
        { s with
          pending := w, cmderr := false, dvalid := false
          result := .illegalOp, busy := false, done := true, xstate := .idle
          program := more, schedule := rest, draws := s.draws + 2 }

/-- R223: the controller's step on an illegal word writes nothing but STATUS. -/
def Obligations.IllegalWordCompletes : Prop :=
  ∀ (w : Word) (s : State),
    exec (.illegal w) s = .next
      { s with result := .illegalOp, busy := false, done := true, xstate := .idle }

/-! The CRC unit. -/

/-- R110, R111: eight iterations of test, shift and XOR a byte; the CRC of a sequence folds them from 0xFFFF. -/
def Obligations.CrcIsTheBitSerialFold : Prop :=
  (∀ (r : Half) (b : Byte),
    crcStep r b =
      (fun x : Half => if x.getLsbD 0 then (x >>> 1) ^^^ 0xA001 else x >>> 1)^[8]
        (r ^^^ b.zeroExtend 16)) ∧
  (∀ s : List Byte, crc16 s = s.foldl crcStep 0xFFFF)

/-- R112. -/
def Obligations.CrcInitLoadsTheInitialValue : Prop :=
  OnlyWord 0x00000001 .crcInit ∧
  ∀ s : State,
    exec .crcInit s = .next
      { s with crc := 0xFFFF, result := .ok, busy := false, done := true, xstate := .idle }

/-- R113: `CRC.BYTE` is the words `(b << 8) + 0x02`, and feeds `b` to the CRC register. -/
def Obligations.CrcByteFeedsOneByte : Prop :=
  (∀ b : Byte, decodeCommand ((b.zeroExtend 32 <<< 8) + 0x02) = .crcByte b) ∧
  (∀ w : Word, w.extractLsb' 0 8 = 0x02 → w.extractLsb' 16 16 ≠ 0 →
    decodeCommand w = .illegal w ∧
    ∀ s : State,
      exec (decodeCommand w) s = .next
        { s with result := .illegalOp, busy := false, done := true, xstate := .idle }) ∧
  ∀ (b : Byte) (s : State),
    exec (.crcByte b) s = .next
      { s with crc := crcStep s.crc b, result := .ok, busy := false, done := true, xstate := .idle }

/-- The zero residue (R117 (c), 93_implementation_defined.md G3): a frame with its CRC has CRC 0. -/
def Obligations.CrcOfAFrameIsZero : Prop :=
  ∀ body : List Byte, crc16 (withCrc body) = 0x0000

/-- R114 through the host: with nothing scheduled, CRC.SEQ takes three steps a command (the write, the controller's step,
the read of POLL), ends, and leaves the CRC of the whole sequence in the CRC register. The order of moves and the host's
program are the model's choices of log entries 7 and 19. -/
def Obligations.CrcSeqComputesTheCrc : Prop :=
  ∀ (s : State) (bs : List Byte) (more : List HostInstr),
    s.busy = false → s.schedule = [] → s.program = crcSeq bs ++ more →
    ∃ t : State, Host.Core.run core (3 * (bs.length + 1)) s = .next t ∧
      t.program = more ∧ t.crc = crc16 bs ∧ t.result = .ok ∧ t.done = true ∧ t.busy = false ∧
      t.tx = s.tx ∧ t.txlen = s.txlen ∧ t.rx = s.rx ∧ t.rxlen = s.rxlen ∧
      SameValues s t ∧ SameParameters s t

/-! The serializer. -/

/-- R131. -/
def Obligations.EncProbeBuildsTheProbe : Prop :=
  OnlyWord 0x00000010 .encProbe ∧ EmitsBody .encProbe 4 fun s => [s.devaddr, 0x00]

/-- R132: level and password come from ACCESS, PWD0 and PWD1, PW0 first. -/
def Obligations.EncOpenBuildsTheOpenSession : Prop :=
  OnlyWord 0x00000011 .encOpen ∧ EmitsBody .encOpen 11 fun s =>
    [s.devaddr, 0x01, s.access, s.pwd0.extractLsb' 0 8, s.pwd0.extractLsb' 8 8,
      s.pwd0.extractLsb' 16 8, s.pwd0.extractLsb' 24 8, s.pwd1.extractLsb' 0 8,
      s.pwd1.extractLsb' 8 8]

/-- R133. -/
def Obligations.EncCloseBuildsTheCloseSession : Prop :=
  OnlyWord 0x00000012 .encClose ∧ EmitsBody .encClose 4 fun s => [s.devaddr, 0x02]

/-- R134. -/
def Obligations.EncAuxBuildsTheReadAuxiliary : Prop :=
  OnlyWord 0x00000013 .encAux ∧ EmitsBody .encAux 6 fun s => [s.devaddr, 0x08, 0x16, s.subidx]

/-- R135. -/
def Obligations.EncEnergyBuildsTheReadEnergy : Prop :=
  OnlyWord 0x00000014 .encEnergy ∧ EmitsBody .encEnergy 6 fun s =>
    [s.devaddr, 0x05, s.eparam.extractLsb' 0 8, s.eparam.extractLsb' 8 8]

/-- R87, R90: what a serializer command leaves in TX is the encoding of the table's request row for its operands. -/
def Obligations.SerializerBuildsTheTableRows : Prop :=
  ∀ s t : State,
    (exec .encProbe s = .next t → txFrame t = encode (.wireRequestProbe s.devaddr)) ∧
    (exec .encOpen s = .next t → txFrame t = encode (.wireRequestOpenSession s.devaddr s.access
      (password s 0) (password s 1) (password s 2) (password s 3) (password s 4) (password s 5))) ∧
    (exec .encClose s = .next t → txFrame t = encode (.wireRequestCloseSession s.devaddr)) ∧
    (exec .encAux s = .next t →
      (s.subidx = 0x11 → txFrame t = encode (.wireRequestReadVoltage s.devaddr)) ∧
      (s.subidx = 0x21 → txFrame t = encode (.wireRequestReadCurrent s.devaddr)) ∧
      (s.subidx = 0x51 → txFrame t = encode (.wireRequestReadAngle s.devaddr)) ∧
      (s.subidx = 0x30 → txFrame t = encode (.wireRequestReadCosPhi s.devaddr)) ∧
      (s.subidx = 0x40 → txFrame t = encode (.wireRequestReadFrequency s.devaddr)) ∧
      (s.subidx = 0x00 → txFrame t = encode (.wireRequestReadActivePower s.devaddr)) ∧
      (s.subidx = 0x08 → txFrame t = encode (.wireRequestReadReactivePower s.devaddr))) ∧
    (exec .encEnergy s = .next t → txFrame t =
      encode (.wireRequestReadEnergyCounters s.devaddr (periodMonth s) (tariff s)))

/-! The deserializer. -/

/-- R170: the status byte whole, not masked. -/
def Obligations.DecStatusReturnsTheStatusByte : Prop :=
  OnlyWord 0x00000020 .decStatus ∧ Decodes .decStatus 4 fun s =>
    ⟨(rxByte s 1).zeroExtend 32, 0, 0, 0⟩

/-- R171. -/
def Obligations.DecScalar3ReturnsOneField : Prop :=
  OnlyWord 0x00000021 .decScalar3 ∧ Decodes .decScalar3 6 fun s =>
    ⟨d3 (rxByte s 1) (rxByte s 2) (rxByte s 3), 0, 0, 0⟩

/-- R172. -/
def Obligations.DecPhase3ReturnsThreeFields : Prop :=
  OnlyWord 0x00000022 .decPhase3 ∧ Decodes .decPhase3 12 fun s =>
    ⟨d3 (rxByte s 1) (rxByte s 2) (rxByte s 3), d3 (rxByte s 4) (rxByte s 5) (rxByte s 6),
      d3 (rxByte s 7) (rxByte s 8) (rxByte s 9), 0⟩

/-- R173. -/
def Obligations.DecSumphase3ReturnsFourFields : Prop :=
  OnlyWord 0x00000023 .decSumphase3 ∧ Decodes .decSumphase3 15 fun s =>
    ⟨d3 (rxByte s 1) (rxByte s 2) (rxByte s 3), d3 (rxByte s 4) (rxByte s 5) (rxByte s 6),
      d3 (rxByte s 7) (rxByte s 8) (rxByte s 9), d3 (rxByte s 10) (rxByte s 11) (rxByte s 12)⟩

/-- R174. -/
def Obligations.DecEnergy4ReturnsFourFields : Prop :=
  OnlyWord 0x00000024 .decEnergy4 ∧ Decodes .decEnergy4 19 fun s =>
    ⟨d4 (rxByte s 1) (rxByte s 2) (rxByte s 3) (rxByte s 4),
      d4 (rxByte s 5) (rxByte s 6) (rxByte s 7) (rxByte s 8),
      d4 (rxByte s 9) (rxByte s 10) (rxByte s 11) (rxByte s 12),
      d4 (rxByte s 13) (rxByte s 14) (rxByte s 15) (rxByte s 16)⟩

/-- R67: where each byte of a packed field lands. -/
def Obligations.PackedFieldByteOrder : Prop :=
  (∀ b0 b1 b2 : Byte,
    (d3 b0 b1 b2).extractLsb' 0 8 = b1 ∧ (d3 b0 b1 b2).extractLsb' 8 8 = b2 ∧
    (d3 b0 b1 b2).extractLsb' 16 6 = b0.extractLsb' 0 6 ∧ (d3 b0 b1 b2).extractLsb' 22 10 = 0) ∧
  (∀ b0 b1 b2 b3 : Byte,
    (d4 b0 b1 b2 b3).extractLsb' 0 8 = b2 ∧ (d4 b0 b1 b2 b3).extractLsb' 8 8 = b3 ∧
    (d4 b0 b1 b2 b3).extractLsb' 16 8 = b0 ∧
    (d4 b0 b1 b2 b3).extractLsb' 24 6 = b1.extractLsb' 0 6 ∧
    (d4 b0 b1 b2 b3).extractLsb' 30 2 = 0)

/-- R177: packing then decoding gives the value back; decoding then packing gives the group back exactly where its flag
bits are 0. -/
def Obligations.PackedFieldRoundTrip : Prop :=
  (∀ v : Word, v.toNat < 2 ^ 22 → d3 (e3 v).b0 (e3 v).b1 (e3 v).b2 = v) ∧
  (∀ v : Word, v.toNat < 2 ^ 30 → d4 (e4 v).b0 (e4 v).b1 (e4 v).b2 (e4 v).b3 = v) ∧
  (∀ g : Group3, e3 (d3 g.b0 g.b1 g.b2) = g ↔ g.b0.extractLsb' 6 2 = 0) ∧
  (∀ g : Group4, e4 (d4 g.b0 g.b1 g.b2 g.b3) = g ↔ g.b1.extractLsb' 6 2 = 0)

/-- R176 (a property of the CRC that the spec marks as general knowledge): in a response of the right size that passes
validation, change any one byte, the CRC bytes included; the decoder gives WRONG_CRC and keeps VAL0 to VAL3. -/
def Obligations.OneChangedByteIsWrongCrc : Prop :=
  ∀ (i : Instr) (n k : Nat) (body : List Byte) (b : Byte) (s : State),
    shapeSize i = some n → body.length + 2 = n → k < n → (withCrc body)[k]? ≠ some b →
    RxHolds ((withCrc body).set k b) s →
    ∃ t : State, exec i s = .next t ∧ t.result = .wrongCrc ∧ SameValues s t ∧ t.dvalid = s.dvalid

/-! The exchange controller. -/

/-- R195, block EXEC; R200: without a frame the command ends, RX and RXLEN unchanged. -/
def Obligations.XchgStartsOnlyWithAFrame : Prop :=
  OnlyWord 0x00000030 .xchg ∧
  ∀ s : State, s.xstate = .exec →
    (s.txlen = 0 →
      exec .xchg s = .next
        { s with result := .noFrame, busy := false, done := true, xstate := .idle }) ∧
    (s.txlen ≠ 0 → exec .xchg s = .next { s with xstate := .send })

/-- R195, block SEND: the answer of the channel is the next given one, or a free value where none is given. -/
def Obligations.XchgSendsTheFrame : Prop :=
  ∀ (s : State) (a : WriteAnswer) (ws : List WriteAnswer),
    s.xstate = .send →
    (s.chanWrites = a :: ws ∨
      s.chanWrites = [] ∧ ws = [] ∧ a = Config.chanWriteDraw s.draws) →
    (a = .ok →
      exec .xchg s = .next
        { s with
          chanWrites := ws
          sent := s.sent ++ [(List.range s.txlen.toNat).map (txByte s)]
          xstate := .turn, timer := 0 }) ∧
    (a = .err →
      exec .xchg s = .next
        { s with
          chanWrites := ws, rxlen := 0
          result := .ioError, busy := false, done := true, xstate := .idle })

/-- R195, block TURN, R198: the step to WAIT is not enabled before TIMER has reached P_TURN_MS, and then it is taken. -/
def Obligations.TurnLastsTheTurnaroundDelay : Prop :=
  ∀ (s : State) (rest : List Move),
    s.xstate = .turn → s.busy = true → s.pending = 0x00000030 →
    s.schedule = .controller :: rest →
    (s.timer < Config.turnMs →
      step s = .next { s with schedule := rest, draws := s.draws + 1 }) ∧
    (Config.turnMs ≤ s.timer →
      step s = .next
        { s with xstate := .wait, timer := 0, schedule := rest, draws := s.draws + 1 })

/-- R199: a read of 1 to RX_CAP bytes, whether the answer is given or free, fills RX and RXLEN and completes with OK. -/
def Obligations.XchgKeepsWhatTheReadReturns : Prop :=
  ∀ (s : State) (r : List Byte),
    s.xstate = .wait → nextWait s = .readable → nextRead s = .bytes r → 1 ≤ r.length →
    r.length ≤ Config.rxCap ∧
    ∃ (m : Memory) (n : Byte),
      exec .xchg s = .next
        { s with
          chanWaits := s.chanWaits.tail, chanReads := s.chanReads.tail, rx := m, rxlen := n
          result := .ok, busy := false, done := true, xstate := .idle } ∧
      n.toNat = r.length ∧ HoldsFrame r m s.rx

/-- R200, in WAIT: TIMEOUT, and IO_ERROR for a failed or an empty read, whether the answer is given or free, set RXLEN to 0
and leave RX. That TIMER then stands at P_TIMEOUT_MS is the model's choice of log entry 11. -/
def Obligations.XchgErrorsClearRxlen : Prop :=
  ∀ s : State, s.xstate = .wait →
    (nextWait s = .expired →
      exec .xchg s = .next
        { s with
          chanWaits := s.chanWaits.tail, timer := Config.timeoutMs, rxlen := 0
          result := .timeout, busy := false, done := true, xstate := .idle }) ∧
    (nextWait s = .readable → nextRead s = .err ∨ nextRead s = .bytes [] →
      exec .xchg s = .next
        { s with
          chanWaits := s.chanWaits.tail, chanReads := s.chanReads.tail, rxlen := 0
          result := .ioError, busy := false, done := true, xstate := .idle })

/-- R195, block WAIT, R203: whatever the channel answers, WAIT ends the exchange, with TIMEOUT exactly where the wait
expires, with IO_ERROR exactly where the read fails or is empty, and else with OK and the bytes read, of which there are
between 1 and RX_CAP. The answer is the next given one, a read's cut to RX_CAP bytes, or a free value where none is given:
the model's choice of log entry 8. -/
def Obligations.WaitAlwaysEndsTheExchange : Prop :=
  (∀ s : State, s.xstate = .wait →
    ∃ t : State, exec .xchg s = .next t ∧ t.busy = false ∧ t.done = true ∧ t.xstate = .idle ∧
      ((nextWait s = .expired ∧ t.result = .timeout ∧ t.rxlen = 0 ∧ t.rx = s.rx) ∨
        (nextWait s = .readable ∧ (nextRead s = .err ∨ nextRead s = .bytes []) ∧
          t.result = .ioError ∧ t.rxlen = 0 ∧ t.rx = s.rx) ∨
        (nextWait s = .readable ∧ ∃ r : List Byte, nextRead s = .bytes r ∧
          1 ≤ r.length ∧ r.length ≤ Config.rxCap ∧
          t.result = .ok ∧ t.rxlen.toNat = r.length ∧ HoldsFrame r t.rx s.rx))) ∧
  (∀ (s : State) (a : WaitAnswer) (ws : List WaitAnswer),
    (s.chanWaits = a :: ws → nextWait s = a) ∧
    (s.chanWaits = [] → nextWait s = Config.chanWaitDraw s.draws)) ∧
  (∀ (s : State) (r : List Byte) (rs : List ReadAnswer),
    (s.chanReads = .bytes r :: rs → nextRead s = .bytes (r.take Config.rxCap)) ∧
    (s.chanReads = .err :: rs → nextRead s = .err) ∧
    (s.chanReads = [] → nextRead s = atMost Config.rxCap (Config.chanReadDraw s.draws)))

/-- R197: what XCHG leaves alone, in every state and for every answer of the channel. -/
def Obligations.XchgLeavesTheRest : Prop :=
  ∀ s t : State, exec .xchg s = .next t →
    t.tx = s.tx ∧ t.txlen = s.txlen ∧ t.crc = s.crc ∧ SameValues s t ∧ SameParameters s t ∧
    t.pending = s.pending ∧ t.dvalid = s.dvalid ∧ t.cmderr = s.cmderr ∧
    t.schedule = s.schedule ∧ t.program = s.program ∧ t.hostReads = s.hostReads ∧ t.draws = s.draws

/-- R198, R224: with no access of the host in between, every command in progress completes within five steps. The count
of steps is the model's choice (log entries 7, 11). -/
def Obligations.EveryCommandCompletes : Prop :=
  ∀ s : State, s.busy = true → s.schedule = [] →
    ∃ (n : Nat) (t : State), 1 ≤ n ∧ n ≤ 5 ∧ Host.Core.run core n s = .next t ∧
      t.busy = false ∧ t.done = true ∧ t.xstate = .idle ∧ t.pending = s.pending ∧
      t.program = s.program

/-- R96: with nothing scheduled, DO <mnemonic> ends from every idle state within seven steps, with the command completed,
and ends the run where it is the host's last (R268); and POLL goes on exactly if the STATUS it reads has DONE = 1. The
count of steps and the host's program are the model's choices (log entries 7, 11, 19). -/
def Obligations.DoRunsACommandToItsEnd : Prop :=
  (∀ (s : State) (i : Instr) (more : List HostInstr),
    s.busy = false → s.schedule = [] → portOf i = .command → s.program = doCommand i ++ more →
    ∃ (n : Nat) (t : State), n ≤ 7 ∧ Host.Core.run core n s = .next t ∧ t.program = more ∧
      t.done = true ∧ t.busy = false ∧ t.xstate = .idle ∧ t.pending = encodeCommand i ∧
      t.cmderr = false ∧ (more = [] → t.runEnded = true)) ∧
  (∀ (s : State) (more : List HostInstr) (rest : List Move), HostTurn .poll more rest s →
    (s.done = true → step s = .next (observe .status (afterTurn more rest s))) ∧
    (s.done = false → step s = .next (observe .status (afterTurn (.poll :: more) rest s))))

/-! The rows of the wire. -/

/-- R87: each request row, written to the channel. That `exec` of the row is the SEND step for its frame, in every state, is
the model's choice of log entry 12: the spec gives the rows a layout only. -/
def Obligations.RequestRowsAreSent : Prop :=
  (∀ a, SendsFrame (.wireRequestProbe a) (withCrc [a, 0x00])) ∧
  (∀ a l p0 p1 p2 p3 p4 p5, SendsFrame (.wireRequestOpenSession a l p0 p1 p2 p3 p4 p5)
    (withCrc [a, 0x01, l, p0, p1, p2, p3, p4, p5])) ∧
  (∀ a, SendsFrame (.wireRequestCloseSession a) (withCrc [a, 0x02])) ∧
  (∀ a, SendsFrame (.wireRequestReadVoltage a) (withCrc [a, 0x08, 0x16, 0x11])) ∧
  (∀ a, SendsFrame (.wireRequestReadCurrent a) (withCrc [a, 0x08, 0x16, 0x21])) ∧
  (∀ a, SendsFrame (.wireRequestReadAngle a) (withCrc [a, 0x08, 0x16, 0x51])) ∧
  (∀ a, SendsFrame (.wireRequestReadCosPhi a) (withCrc [a, 0x08, 0x16, 0x30])) ∧
  (∀ a, SendsFrame (.wireRequestReadFrequency a) (withCrc [a, 0x08, 0x16, 0x40])) ∧
  (∀ a, SendsFrame (.wireRequestReadActivePower a) (withCrc [a, 0x08, 0x16, 0x00])) ∧
  (∀ a, SendsFrame (.wireRequestReadReactivePower a) (withCrc [a, 0x08, 0x16, 0x08])) ∧
  (∀ a pm t, SendsFrame (.wireRequestReadEnergyCounters a pm t) (withCrc [a, 0x05, pm, t]))

/-- R91: each response row, returned by the channel's read. That `exec` of the row is the WAIT read of its frame, in every
state, is the model's choice of log entry 12: the spec gives the rows a layout only. -/
def Obligations.ResponseRowsAreReceived : Prop :=
  (∀ a st, ReceivesFrame (.wireResponseStatus a st) (withCrc [a, st])) ∧
  (∀ a (v : Group3), ReceivesFrame (.wireResponseScalar3 a v) (withCrc [a, v.b0, v.b1, v.b2])) ∧
  (∀ a (x y z : Group3), ReceivesFrame (.wireResponsePhase3 a x y z)
    (withCrc [a, x.b0, x.b1, x.b2, y.b0, y.b1, y.b2, z.b0, z.b1, z.b2])) ∧
  (∀ a (s x y z : Group3), ReceivesFrame (.wireResponseSumphase3 a s x y z)
    (withCrc [a, s.b0, s.b1, s.b2, x.b0, x.b1, x.b2, y.b0, y.b1, y.b2, z.b0, z.b1, z.b2])) ∧
  (∀ a (s x y z : Group4), ReceivesFrame (.wireResponseEnergy4 a s x y z)
    (withCrc [a, s.b0, s.b1, s.b2, s.b3, x.b0, x.b1, x.b2, x.b3, y.b0, y.b1, y.b2, y.b3,
      z.b0, z.b1, z.b2, z.b3]))

/-- Where XCHG sends a frame of the table, or reads one (R195), its step is the meaning that the model gives that frame's
row: the model's choice of log entry 12, since the spec gives the rows a layout only. -/
def Obligations.XchgStepIsTheFramesRow : Prop :=
  (∀ (s : State) (i : Instr), s.xstate = .send → decode .request (txFrame s) = .ok i →
    exec .xchg s = exec i s) ∧
  (∀ (s : State) (i : Instr) (r : List Byte) (ws : List WaitAnswer) (rs : List ReadAnswer),
    s.xstate = .wait → s.chanWaits = .readable :: ws → s.chanReads = .bytes r :: rs →
    decode .response r = .ok i → exec .xchg s = exec i s)

/-- R93, R177: a response row received in any state, decoded with the command of its shape, gives exactly the values
packed in it. Reception is `exec` of the row, in every state: the model's choice of log entry 12. -/
def Obligations.ResponseRowsDecodeToTheirValues : Prop :=
  ∀ (s : State) (a : Byte),
    (∀ st : Byte, ∃ t u : State,
      exec (.wireResponseStatus a st) s = .next t ∧ exec .decStatus t = .next u ∧
      u.result = .ok ∧ u.dvalid = true ∧
      u.val0 = st.zeroExtend 32 ∧ u.val1 = 0 ∧ u.val2 = 0 ∧ u.val3 = 0) ∧
    (∀ v0 v1 v2 v3 : Word,
      v0.toNat < 2 ^ 22 → v1.toNat < 2 ^ 22 → v2.toNat < 2 ^ 22 → v3.toNat < 2 ^ 22 →
      (∃ t u : State,
        exec (.wireResponseScalar3 a (e3 v0)) s = .next t ∧ exec .decScalar3 t = .next u ∧
        u.result = .ok ∧ u.dvalid = true ∧
        u.val0 = v0 ∧ u.val1 = 0 ∧ u.val2 = 0 ∧ u.val3 = 0) ∧
      (∃ t u : State,
        exec (.wireResponsePhase3 a (e3 v0) (e3 v1) (e3 v2)) s = .next t ∧
        exec .decPhase3 t = .next u ∧ u.result = .ok ∧ u.dvalid = true ∧
        u.val0 = v0 ∧ u.val1 = v1 ∧ u.val2 = v2 ∧ u.val3 = 0) ∧
      (∃ t u : State,
        exec (.wireResponseSumphase3 a (e3 v0) (e3 v1) (e3 v2) (e3 v3)) s = .next t ∧
        exec .decSumphase3 t = .next u ∧ u.result = .ok ∧ u.dvalid = true ∧
        u.val0 = v0 ∧ u.val1 = v1 ∧ u.val2 = v2 ∧ u.val3 = v3)) ∧
    (∀ v0 v1 v2 v3 : Word,
      v0.toNat < 2 ^ 30 → v1.toNat < 2 ^ 30 → v2.toNat < 2 ^ 30 → v3.toNat < 2 ^ 30 →
      ∃ t u : State,
        exec (.wireResponseEnergy4 a (e4 v0) (e4 v1) (e4 v2) (e4 v3)) s = .next t ∧
        exec .decEnergy4 t = .next u ∧ u.result = .ok ∧ u.dvalid = true ∧
        u.val0 = v0 ∧ u.val1 = v1 ∧ u.val2 = v2 ∧ u.val3 = v3)

/-! The host's accesses. -/

/-- R220: a CMD write while BUSY = 0 is accepted, and the controller then performs its word; while BUSY = 1 it only sets
CMDERR, and a write to another register does nothing. -/
def Obligations.AcceptanceOfCommands : Prop :=
  ∀ (s : State) (w : Word) (more : List HostInstr) (rest : List Move),
    (s.busy = false → HostTurn (.write (busAddress 0x000) 32 w) more rest s →
      ∃ t : State, step s = .next t ∧
        t = { afterTurn more rest s with
          pending := w, busy := true, done := false, dvalid := false, cmderr := false
          xstate := .exec } ∧
        controllerEnabled t = true ∧ currentInstr t = decodeCommand w) ∧
    (s.busy = true → HostTurn (.write (busAddress 0x000) 32 w) more rest s →
      step s = .next { afterTurn more rest s with cmderr := true }) ∧
    (∀ off : Nat, s.busy = true → HostTurn (.write (busAddress off) 32 w) more rest s →
      off < 0x200 → off % 4 = 0 → off ≠ 0x000 → step s = .next (afterTurn more rest s))

/-- R31 to R35, R38, R60: the step of a host write to a parameter register or to RXLEN while BUSY = 0 stores its field. -/
def Obligations.ParameterWritesStoreTheirFields : Prop :=
  ∀ (s : State) (w : Word) (more : List HostInstr) (rest : List Move), s.busy = false →
    (HostTurn (.write (busAddress 0x008) 32 w) more rest s →
      step s = .next { afterTurn more rest s with devaddr := w.extractLsb' 0 8 }) ∧
    (HostTurn (.write (busAddress 0x00C) 32 w) more rest s →
      step s = .next { afterTurn more rest s with subidx := w.extractLsb' 0 8 }) ∧
    (HostTurn (.write (busAddress 0x010) 32 w) more rest s →
      step s = .next { afterTurn more rest s with eparam := w.extractLsb' 0 16 }) ∧
    (HostTurn (.write (busAddress 0x014) 32 w) more rest s →
      step s = .next { afterTurn more rest s with access := w.extractLsb' 0 8 }) ∧
    (HostTurn (.write (busAddress 0x018) 32 w) more rest s →
      step s = .next { afterTurn more rest s with pwd0 := w }) ∧
    (HostTurn (.write (busAddress 0x01C) 32 w) more rest s →
      step s = .next { afterTurn more rest s with pwd1 := w.extractLsb' 0 16 }) ∧
    (HostTurn (.write (busAddress 0x028) 32 w) more rest s →
      step s = .next
        (if (w.extractLsb' 0 8).toNat ≤ Config.rxCap then
          { afterTurn more rest s with rxlen := w.extractLsb' 0 8 }
        else afterTurn more rest s))

/-- R41, R68: the step of a host write to RXDATAk while BUSY = 0 stores its four lanes, but for those past RX_CAP. -/
def Obligations.RxdataWritesStoreTheirLanes : Prop :=
  ∀ (s : State) (w : Word) (k : Nat) (more : List HostInstr) (rest : List Move),
    s.busy = false → k < 64 → HostTurn (.write (busAddress (0x100 + 4 * k)) 32 w) more rest s →
    ∃ m : Memory, step s = .next { afterTurn more rest s with rx := m } ∧
      (∀ j : Nat, j < 4 → 4 * k + j < Config.rxCap →
        memRead m (4 * k + j) = some (w.extractLsb' (8 * j) 8)) ∧
      (∀ i : Nat, i < 4 * k ∨ 4 * k + 4 ≤ i ∨ Config.rxCap ≤ i → memRead m i = memRead s.rx i)

/-- R62: a supported read changes no register; its value goes to the host. -/
def Obligations.ReadsHaveNoSideEffect : Prop :=
  ∀ (s : State) (off : Nat) (more : List HostInstr) (rest : List Move),
    HostTurn (.read (busAddress off) 32) more rest s → off < 0x200 → off % 4 = 0 →
    step s = .next
      { afterTurn more rest s with
        hostReads := s.hostReads ++ [readReg (afterTurn more rest s) (regAt off)] }

/-- R64: reserved offsets read 0; the step of a write to them or to a read-only register, whether BUSY is 0 or 1, changes
no register. -/
def Obligations.ReservedSpaceAndReadOnly : Prop :=
  ∀ (s : State) (off : Nat) (w : Word) (more : List HostInstr) (rest : List Move), off % 4 = 0 →
    ((0x040 ≤ off ∧ off ≤ 0x07C) ∨ (0x08C ≤ off ∧ off ≤ 0x0FC) →
      readReg s (regAt off) = 0 ∧
      (HostTurn (.write (busAddress off) 32 w) more rest s →
        step s = .next (afterTurn more rest s))) ∧
    (off = 0x004 ∨ off = 0x020 ∨ off = 0x024 ∨ off = 0x02C ∨ (0x030 ≤ off ∧ off ≤ 0x03C) ∨
        (0x080 ≤ off ∧ off ≤ 0x088) →
      HostTurn (.write (busAddress off) 32 w) more rest s → step s = .next (afterTurn more rest s))

/-- R22, R23, R31 to R39, R42: what a host read of each register below the buffers gives. -/
def Obligations.RegisterMapReads : Prop :=
  ∀ s : State,
    readReg s (regAt 0x000) = 0 ∧ readReg s (regAt 0x004) = statusWord s ∧
    readReg s (regAt 0x008) = s.devaddr.zeroExtend 32 ∧
    readReg s (regAt 0x00C) = s.subidx.zeroExtend 32 ∧
    readReg s (regAt 0x010) = s.eparam.zeroExtend 32 ∧
    readReg s (regAt 0x014) = s.access.zeroExtend 32 ∧
    readReg s (regAt 0x018) = s.pwd0 ∧ readReg s (regAt 0x01C) = s.pwd1.zeroExtend 32 ∧
    readReg s (regAt 0x020) = s.crc.zeroExtend 32 ∧
    readReg s (regAt 0x024) = s.txlen.zeroExtend 32 ∧
    readReg s (regAt 0x028) = s.rxlen.zeroExtend 32 ∧
    readReg s (regAt 0x02C) = 0x00000B00 + BitVec.ofNat 32 Config.rxCap ∧
    readReg s (regAt 0x030) = s.val0 ∧ readReg s (regAt 0x034) = s.val1 ∧
    readReg s (regAt 0x038) = s.val2 ∧ readReg s (regAt 0x03C) = s.val3

/-- R40, R41, R68: the byte lanes of TXDATA and RXDATA; a lane past the buffer reads 0. -/
def Obligations.BufferWindowLanes : Prop :=
  ∀ (s : State) (j m : Nat), m < 4 →
    (j < 3 → (readReg s (regAt (0x080 + 4 * j))).extractLsb' (8 * m) 8 =
      if 4 * j + m ≤ 10 then txByte s (4 * j + m) else 0) ∧
    (j < 64 → (readReg s (regAt (0x100 + 4 * j))).extractLsb' (8 * m) 8 =
      if 4 * j + m < Config.rxCap then rxByte s (4 * j + m) else 0)

/-- R24, with the codes of R221 and R30: the fields of STATUS. -/
def Obligations.StatusLayout : Prop :=
  ∀ s : State,
    (statusWord s).getLsbD 0 = s.busy ∧ (statusWord s).getLsbD 1 = s.done ∧
    (statusWord s).getLsbD 2 = s.dvalid ∧ (statusWord s).getLsbD 3 = s.cmderr ∧
    (statusWord s).extractLsb' 4 4 =
      (match s.result with
        | .ok => 0
        | .timeout => 1
        | .ioError => 2
        | .wrongSize => 3
        | .wrongCrc => 4
        | .illegalOp => 5
        | .noFrame => 6) ∧
    (statusWord s).extractLsb' 8 4 =
      (match s.xstate with
        | .idle => 0
        | .exec => 1
        | .send => 2
        | .turn => 3
        | .wait => 4) ∧
    (statusWord s).extractLsb' 12 20 = 0

/-- R61, and R60 with the model's choice of log entry 17: an unsupported access is refused by name, an access outside the
window is a fault, and nothing else ever stops the machine. -/
def Obligations.OnlyUnsupportedAccessesStop : Prop :=
  (∀ (s : State) (off width : Nat) (w : Word) (more : List HostInstr) (rest : List Move),
    off < 0x200 → width ≠ 32 ∨ off % 4 ≠ 0 →
    (HostTurn (.read (busAddress off) width) more rest s →
      step s = .refused (.unsupportedAccess off width)) ∧
    (HostTurn (.write (busAddress off) width w) more rest s →
      step s = .refused (.unsupportedAccess off width))) ∧
  (∀ (s : State) (address width : Nat) (w : Word) (more : List HostInstr) (rest : List Move),
    address < busAddress 0x000 ∨ busAddress 0x200 ≤ address →
    (HostTurn (.read address width) more rest s → step s = .fault (.outsideWindow address)) ∧
    (HostTurn (.write address width w) more rest s → step s = .fault (.outsideWindow address))) ∧
  (∀ s : State,
    (∀ address width : Nat, s.program.head? = some (.read address width) →
      ∃ off : Nat, address = busAddress off ∧ off < 0x200 ∧ width = 32 ∧ off % 4 = 0) →
    (∀ (address width : Nat) (w : Word), s.program.head? = some (.write address width w) →
      ∃ off : Nat, address = busAddress off ∧ off < 0x200 ∧ width = 32 ∧ off % 4 = 0) →
    ∃ t : State, step s = .next t)

/-- R96: with nothing scheduled, LOADRX, one step a write, puts a response of 1 to RX_CAP bytes into RX and its length into
RXLEN. The order of moves and the host's program are the model's choices of log entries 7 and 19. -/
def Obligations.LoadRxLoadsAResponse : Prop :=
  ∀ (s : State) (bs : List Byte) (more : List HostInstr),
    s.busy = false → s.schedule = [] → 1 ≤ bs.length → bs.length ≤ Config.rxCap →
    s.program = loadRx bs ++ more →
    ∃ t : State, Host.Core.run core (loadRx bs).length s = .next t ∧ t.program = more ∧
      RxHolds bs t ∧ t.busy = false ∧ t.crc = s.crc ∧ t.tx = s.tx ∧ t.txlen = s.txlen ∧
      SameValues s t ∧ SameParameters s t

/-- R226: a CMD write and the completion of a command, an XCHG that ends in EXEC, SEND or WAIT among them, in either order:
accepted after it, dropped before it. -/
def Obligations.BothOrdersOfARace : Prop :=
  ∀ (s : State) (w : Word) (more : List HostInstr) (rest : List Move),
    s.busy = true → s.program = .write (busAddress 0x000) 32 w :: more →
    (s.schedule = .controller :: .host :: rest → CompletesNow (stepStart s) →
      ∃ t : State, Host.Core.run core 2 s = .next t ∧
        t.busy = true ∧ t.done = false ∧ t.pending = w ∧ t.cmderr = false ∧ t.xstate = .exec) ∧
    (s.schedule = .host :: .controller :: rest → CompletesNow (stepStart (stepStart s)) →
      ∃ t : State, Host.Core.run core 2 s = .next t ∧
        t.busy = false ∧ t.done = true ∧ t.pending = s.pending ∧ t.cmderr = true ∧
        t.xstate = .idle)

/-! Reset. -/

/-- R45: every piece of state after reset; no buffer cell has been written. -/
def Obligations.ResetValues : Prop :=
  statusWord State.reset = 0x00000000 ∧ State.reset.busy = false ∧ State.reset.xstate = .idle ∧
  State.reset.devaddr = 0x00 ∧ State.reset.subidx = 0x00 ∧ State.reset.eparam = 0x0000 ∧
  State.reset.access = 0x01 ∧ State.reset.pwd0 = 0x01010101 ∧ State.reset.pwd1 = 0x0101 ∧
  State.reset.crc = 0xFFFF ∧ State.reset.txlen = 0 ∧ State.reset.rxlen = 0 ∧
  State.reset.val0 = 0 ∧ State.reset.val1 = 0 ∧ State.reset.val2 = 0 ∧ State.reset.val3 = 0 ∧
  State.reset.timer = 0 ∧
  (∀ i : Nat, memRead State.reset.tx i = none ∧ memRead State.reset.rx i = none)

/-- R250: reset, whatever is in progress; what lies outside the MFE stays (log entry 18). -/
def Obligations.ResetFromAnyState : Prop :=
  ∀ (s : State) (rest : List Move), s.schedule = .reset :: rest →
    step s = .next
      { State.reset with
        chanWrites := s.chanWrites, chanWaits := s.chanWaits, chanReads := s.chanReads
        sent := s.sent, schedule := rest, program := s.program, hostReads := s.hostReads
        draws := s.draws + 1 }

/-- R251: after reset XCHG completes with NO_FRAME and every DEC.* with WRONG_SIZE. -/
def Obligations.FirstCommandsAfterReset : Prop :=
  (∃ t : State, step (placeCommand State.reset 0x00000030) = .next t ∧ t.result = .noFrame ∧
    t.done = true) ∧
  (∀ (i : Instr) (n : Nat), shapeSize i = some n →
    ∃ t : State, step (placeCommand State.reset (encodeCommand i)) = .next t ∧
      t.result = .wrongSize ∧ t.done = true ∧ SameValues State.reset t)

/-! The step. -/

/-- When the word in PENDING decodes to an instruction and the controller's step is enabled, the step is that
instruction's meaning, in the state with its move taken off the schedule and a fresh draw (log entries 6, 14). That the
controller moves next when the schedule is empty, the first clause, is the model's choice of log entry 7. -/
def Obligations.StepRunsTheDecodedInstruction : Prop :=
  ∀ (s : State) (i : Instr) (rest : List Move),
    decode .command (wordBytes s.pending) = .ok i → controllerEnabled s = true →
    (s.schedule = [] → step s = exec i { s with schedule := [], draws := s.draws + 1 }) ∧
    (s.schedule = .controller :: rest →
      step s = exec i { s with schedule := rest, draws := s.draws + 1 })

/-! Invariants and rules of the whole machine. -/

/-- The invariant holds at reset. -/
def Obligations.ResetMeetsTheInvariant : Prop := Invariant State.reset

/-- Every step keeps the invariant: canonical buffers within their capacity, RXLEN within RX_CAP, TX and the line hold
request frames only, BUSY, DONE and DVALID agree with the controller state, TIMER within its bound. -/
def Obligations.StepKeepsTheInvariant : Prop :=
  ∀ s t : State, Invariant s → step s = .next t → Invariant t

/-- R42: only a DEC.* that returns OK, or reset, changes VAL0 to VAL3. -/
def Obligations.ValuesChangeOnlyByADecode : Prop :=
  ∀ s t : State, step s = .next t → ¬ SameValues s t →
    (s.busy = true ∧ (∃ n, shapeSize (decodeCommand s.pending) = some n) ∧
      t.result = .ok ∧ t.dvalid = true ∧ t.done = true) ∨
    s.schedule.head? = some .reset

/-- R37, R40, R137: only a serializer command, or reset, changes the TX buffer and TXLEN. -/
def Obligations.TxChangesOnlyByTheSerializer : Prop :=
  ∀ s t : State, step s = .next t → t.tx ≠ s.tx ∨ t.txlen ≠ s.txlen →
    (s.busy = true ∧ isSerializer (decodeCommand s.pending) = true) ∨
    s.schedule.head? = some .reset

/-- R36, R259: what changes the CRC register. -/
def Obligations.CrcChangesOnlyByItsWriters : Prop :=
  ∀ s t : State, step s = .next t → t.crc ≠ s.crc →
    (s.busy = true ∧
      (decodeCommand s.pending = .crcInit ∨ (∃ b, decodeCommand s.pending = .crcByte b) ∨
        isSerializer (decodeCommand s.pending) = true ∨
        shapeSize (decodeCommand s.pending) = some s.rxlen.toNat)) ∨
    s.schedule.head? = some .reset

/-- R41, R63: only an XCHG, a host write while BUSY = 0, or reset changes the RX buffer or RXLEN. -/
def Obligations.RxChangesOnlyByExchangeOrHost : Prop :=
  ∀ s t : State, step s = .next t → t.rx ≠ s.rx ∨ t.rxlen ≠ s.rxlen →
    (s.busy = true ∧ decodeCommand s.pending = .xchg ∧ t.done = true) ∨
    (s.busy = false ∧ ∃ address width w, s.program = .write address width w :: t.program) ∨
    s.schedule.head? = some .reset

/-- R63, R254: a parameter register changes only by a host write while BUSY = 0, or reset. -/
def Obligations.ParametersChangeOnlyByTheHost : Prop :=
  ∀ s t : State, step s = .next t → ¬ SameParameters s t →
    (s.busy = false ∧ ∃ address width w, s.program = .write address width w :: t.program) ∨
    s.schedule.head? = some .reset

/-- R29: RESULT changes only at a completion, or by reset. -/
def Obligations.ResultChangesOnlyAtCompletion : Prop :=
  ∀ s t : State, step s = .next t → t.result ≠ s.result →
    (s.busy = true ∧ t.busy = false ∧ t.done = true ∧ t.xstate = .idle) ∨
    s.schedule.head? = some .reset
end

