-- ==== Sys2Proof/Laws/Crc.lean ====
section
/-! SUPPORT. The CRC round is linear over XOR and has no other root than 0, so a step of the CRC loses nothing. -/

namespace Sys2Proof.Machine

theorem crcRound_xor (a b : Half) : crcRound (a ^^^ b) = crcRound a ^^^ crcRound b := by
  unfold crcRound
  rw [BitVec.getLsbD_xor, BitVec.ushiftRight_xor_distrib]
  generalize a >>> 1 = x
  generalize b >>> 1 = y
  generalize Config.crcPoly = p
  cases a.getLsbD 0 <;> cases b.getLsbD 0
  · rfl
  · simp [BitVec.xor_assoc]
  · simp [BitVec.xor_assoc, BitVec.xor_comm p y]
  · show x ^^^ y = (x ^^^ p) ^^^ (y ^^^ p)
    rw [BitVec.xor_assoc x p, BitVec.xor_comm y p, ← BitVec.xor_assoc p p, BitVec.xor_self,
      BitVec.zero_xor]

theorem crcRounds_xor (n : Nat) (a b : Half) :
    crcRounds n (a ^^^ b) = crcRounds n a ^^^ crcRounds n b := by
  induction n generalizing a b with
  | zero => rfl
  | succ n ih => simp [crcRounds, crcRound_xor, ih]

theorem crcRound_eq_zero {a : Half} (h : crcRound a = 0) : a = 0 := by
  unfold crcRound at h
  by_cases h0 : a.getLsbD 0
  · rw [if_pos h0] at h
    have h15 := congrArg (fun x => x.getLsbD 15) h
    simp [Config.crcPoly] at h15
  · rw [if_neg h0] at h
    apply BitVec.eq_of_getLsbD_eq
    intro i hi
    rcases i with _ | i
    · simpa using h0
    · have hb := congrArg (fun x => x.getLsbD i) h
      simp at hb
      simpa [Nat.add_comm] using hb

theorem crcRounds_eq_zero {n : Nat} {a : Half} (h : crcRounds n a = 0) : a = 0 := by
  induction n generalizing a with
  | zero => exact h
  | succ n ih => exact crcRound_eq_zero (ih h)

/-- Two steps that end in one value began with one value of register XOR byte. -/
theorem crcStep_inj {r r' : Half} {b b' : Byte} (h : crcStep r b = crcStep r' b') :
    r ^^^ b.zeroExtend 16 = r' ^^^ b'.zeroExtend 16 := by
  unfold crcStep at h
  have h0 : crcRounds 8 ((r ^^^ b.zeroExtend 16) ^^^ (r' ^^^ b'.zeroExtend 16)) = 0 := by
    rw [crcRounds_xor, h, BitVec.xor_self]
    rfl
  exact BitVec.xor_eq_zero_iff.1 (crcRounds_eq_zero h0)

end Sys2Proof.Machine
end

