-- ==== Sys2Proof/Laws/Encoding.lean ====
section
/-! SUPPORT. The lanes of a word and the fields of a command word. -/

namespace Sys2Proof.Machine

theorem wordOfLanes_wordLane (w : Word) :
    wordOfLanes (wordLane w 0) (wordLane w 1) (wordLane w 2) (wordLane w 3) = w := by
  unfold wordOfLanes wordLane
  ext i hi
  interval_cases i <;> simp

theorem wordLane_wordOfLanes (b0 b1 b2 b3 : Byte) :
    wordLane (wordOfLanes b0 b1 b2 b3) 0 = b0 ∧ wordLane (wordOfLanes b0 b1 b2 b3) 1 = b1 ∧
      wordLane (wordOfLanes b0 b1 b2 b3) 2 = b2 ∧ wordLane (wordOfLanes b0 b1 b2 b3) 3 = b3 := by
  unfold wordOfLanes wordLane
  refine ⟨?_, ?_, ?_, ?_⟩ <;> (ext i hi; interval_cases i <;> simp)

end Sys2Proof.Machine

namespace Sys2Proof

theorem commandWord_fields (op arg : Byte) :
    (commandWord op arg).extractLsb' 0 8 = op ∧ (commandWord op arg).extractLsb' 8 8 = arg ∧
      (commandWord op arg).extractLsb' 16 16 = 0 := by
  unfold commandWord
  refine ⟨?_, ?_, ?_⟩ <;> (ext i hi; interval_cases i <;> simp)

/-- A word that is not illegal has RSV 0, and is a `CRC.BYTE` or has ARG 0 too. -/
theorem decodeCommand_cases (w : Word) :
    decodeCommand w = .illegal w ∨
    (w.extractLsb' 16 16 = 0 ∧
      ((w.extractLsb' 0 8 = 0x02 ∧ decodeCommand w = .crcByte (w.extractLsb' 8 8)) ∨
        (w.extractLsb' 8 8 = 0 ∧ w.extractLsb' 0 8 ≠ 0x02 ∧ decodeCommand w = decodeOpcode w))) := by
  unfold decodeCommand
  split
  · exact .inl rfl
  · rename_i h
    simp only [ne_eq, Decidable.not_not] at h
    split
    · exact .inr ⟨h, .inl ⟨‹_›, rfl⟩⟩
    · split
      · exact .inl rfl
      · rename_i h2 h8
        exact .inr ⟨h, .inr ⟨by simpa using h8, h2, rfl⟩⟩

/-- Every word decodes to a command. -/
theorem portOf_decodeCommand (w : Word) : portOf (decodeCommand w) = .command := by
  rcases decodeCommand_cases w with h | ⟨_, ⟨_, h⟩ | ⟨_, _, h⟩⟩ <;> rw [h]
  · rfl
  · rfl
  · unfold decodeOpcode
    split <;> rfl

end Sys2Proof
end

