-- ==== Sys2Proof/Laws/Memory.lean ====
section
/-! SUPPORT. The laws of the buffers: a read after a write, the canonical form, the bound of the indices. -/

namespace Sys2Proof.Machine

@[simp] theorem memRead_memWrite (m : Memory) (a c : Nat) (b : Byte) :
    memRead (memWrite m a b) c = if a = c then some b else memRead m c := by
  induction m with
  | nil => simp [memWrite, memRead]
  | cons e m ih =>
    obtain ⟨i, x⟩ := e
    simp only [memWrite]
    split
    · simp [memRead]
    · split
      · subst i; simp only [memRead]; split <;> rfl
      · simp only [memRead, ih]
        split_ifs <;> first | rfl | omega

/-- Writing in a row: a cell of the written range reads as the list gives it, every other as before. -/
theorem memRead_memWriteBytes (bs : List Byte) (m : Memory) (a c : Nat) :
    memRead (memWriteBytes m a bs) c =
      if a ≤ c ∧ c < a + bs.length then bs[c - a]? else memRead m c := by
  induction bs generalizing m a with
  | nil => simp only [memWriteBytes, List.length_nil]; rw [if_neg (by omega)]
  | cons b bs ih =>
    simp only [memWriteBytes, ih, memRead_memWrite, List.length_cons]
    rcases Nat.lt_trichotomy a c with h | h | h
    · obtain ⟨k, rfl⟩ : ∃ k, c = a + 1 + k := ⟨c - (a + 1), by omega⟩
      have h1 : a + 1 + k - (a + 1) = k := by omega
      have h2 : a + 1 + k - a = k + 1 := by omega
      rw [h1, h2, List.getElem?_cons_succ]
      split_ifs <;> first | rfl | omega
    · subst h; simp
    · split_ifs <;> first | rfl | omega

/-- Every cell of `memWrite m a b` is the written one or a cell of `m`. -/
theorem mem_memWrite {m : Memory} {a : Nat} {b : Byte} {c : Host.Cell}
    (h : c ∈ memWrite m a b) : c = (a, b) ∨ c ∈ m := by
  induction m with
  | nil => simpa [memWrite] using h
  | cons e m ih =>
    obtain ⟨i, x⟩ := e
    simp only [memWrite] at h
    split at h
    · simpa using h
    · split at h
      · rcases List.mem_cons.1 h with h | h
        · exact .inl h
        · exact .inr (List.mem_cons_of_mem _ h)
      · rcases List.mem_cons.1 h with h | h
        · exact .inr (h ▸ List.mem_cons_self)
        · exact (ih h).imp_right (List.mem_cons_of_mem _)

theorem memWrite_wf {m : Memory} (hm : Memory.wf m) (a : Nat) (b : Byte) :
    Memory.wf (memWrite m a b) := by
  induction m with
  | nil => simp [memWrite, Memory.wf]
  | cons e m ih =>
    obtain ⟨i, x⟩ := e
    obtain ⟨hlt, htail⟩ := List.pairwise_cons.1 hm
    simp only [memWrite]
    split
    · rename_i h
      refine List.pairwise_cons.2 ⟨fun c hc => ?_, List.pairwise_cons.2 ⟨hlt, htail⟩⟩
      rcases List.mem_cons.1 hc with rfl | hc
      · exact h
      · exact Nat.lt_trans h (hlt c hc)
    · split
      · subst i; exact List.pairwise_cons.2 ⟨hlt, htail⟩
      · refine List.pairwise_cons.2 ⟨fun c hc => ?_, ih htail⟩
        rcases mem_memWrite hc with rfl | hc
        · show i < a; omega
        · exact hlt c hc

theorem memWriteBytes_wf {m : Memory} (hm : Memory.wf m) (a : Nat) (bs : List Byte) :
    Memory.wf (memWriteBytes m a bs) := by
  induction bs generalizing m a with
  | nil => exact hm
  | cons b bs ih => exact ih (memWrite_wf hm a b) (a + 1)

theorem memWriteBytes_bound {m : Memory} {n : Nat} (hm : ∀ c ∈ m, c.1 < n) (a : Nat)
    (bs : List Byte) (h : a + bs.length ≤ n) : ∀ c ∈ memWriteBytes m a bs, c.1 < n := by
  induction bs generalizing m a with
  | nil => exact hm
  | cons b bs ih =>
    simp only [List.length_cons] at h
    refine ih (fun c hc => ?_) (a + 1) (by omega)
    rcases mem_memWrite hc with rfl | hc
    · show a < n; omega
    · exact hm c hc

theorem writeRxLanes_wf {m : Memory} (hm : Memory.wf m) (i : Nat) (bs : List Byte) :
    Memory.wf (writeRxLanes m i bs) := by
  induction bs generalizing m i with
  | nil => exact hm
  | cons b bs ih =>
    refine ih ?_ (i + 1)
    split
    · exact memWrite_wf hm i b
    · exact hm

theorem writeRxLanes_bound {m : Memory} (hm : ∀ c ∈ m, c.1 < Config.rxCap) (i : Nat)
    (bs : List Byte) : ∀ c ∈ writeRxLanes m i bs, c.1 < Config.rxCap := by
  induction bs generalizing m i with
  | nil => exact hm
  | cons b bs ih =>
    refine ih (fun c hc => ?_) (i + 1)
    split at hc
    · rcases mem_memWrite hc with rfl | hc
      · assumption
      · exact hm c hc
    · exact hm c hc

/-- Storing lanes: a cell of the stored range below RX_CAP reads as its lane, every other cell as before. -/
theorem memRead_writeRxLanes (bs : List Byte) (m : Memory) (i c : Nat) :
    memRead (writeRxLanes m i bs) c =
      if i ≤ c ∧ c < i + bs.length ∧ c < Config.rxCap then bs[c - i]? else memRead m c := by
  induction bs generalizing m i with
  | nil => simp only [writeRxLanes, List.length_nil]; rw [if_neg (by omega)]
  | cons b bs ih =>
    have hm : memRead (if i < Config.rxCap then memWrite m i b else m) c =
        if i = c ∧ i < Config.rxCap then some b else memRead m c := by
      by_cases hr : i < Config.rxCap
      · rw [if_pos hr, memRead_memWrite]; simp only [hr, and_true]
      · simp only [hr, and_false, if_false]
    simp only [writeRxLanes, ih, hm, List.length_cons]
    rcases Nat.lt_trichotomy i c with h | h | h
    · obtain ⟨k, rfl⟩ : ∃ k, c = i + 1 + k := ⟨c - (i + 1), by omega⟩
      have h1 : i + 1 + k - (i + 1) = k := by omega
      have h2 : i + 1 + k - i = k + 1 := by omega
      rw [h1, h2, List.getElem?_cons_succ]
      split_ifs <;> first | rfl | omega
    · subst h
      split_ifs <;> first | rfl | omega | simp
    · split_ifs <;> first | rfl | omega

theorem reset_memory_wf : Memory.wf State.reset.tx ∧ Memory.wf State.reset.rx := by
  simp [State.reset, Memory.wf]

theorem rxCap_ge : 20 ≤ Config.rxCap := by unfold Config.rxCap; omega

theorem rxCap_le : Config.rxCap ≤ 255 := by
  have := Config.rxCapExtra.isLt
  unfold Config.rxCap; omega

end Sys2Proof.Machine
end

