-- ==== Sys2Proof/Laws/State.lean ====
section
/-! SUPPORT. One lemma per field for each named update of the state, so that no later proof unfolds one. -/

namespace Sys2Proof.Machine

variable (s : State)

/-! `complete` -/

@[simp] theorem complete_busy (c : ResultCode) : (complete c s).busy = false := rfl
@[simp] theorem complete_done (c : ResultCode) : (complete c s).done = true := rfl
@[simp] theorem complete_dvalid (c : ResultCode) : (complete c s).dvalid = s.dvalid := rfl
@[simp] theorem complete_cmderr (c : ResultCode) : (complete c s).cmderr = s.cmderr := rfl
@[simp] theorem complete_result (c : ResultCode) : (complete c s).result = c := rfl
@[simp] theorem complete_xstate (c : ResultCode) : (complete c s).xstate = .idle := rfl
@[simp] theorem complete_devaddr (c : ResultCode) : (complete c s).devaddr = s.devaddr := rfl
@[simp] theorem complete_subidx (c : ResultCode) : (complete c s).subidx = s.subidx := rfl
@[simp] theorem complete_eparam (c : ResultCode) : (complete c s).eparam = s.eparam := rfl
@[simp] theorem complete_access (c : ResultCode) : (complete c s).access = s.access := rfl
@[simp] theorem complete_pwd0 (c : ResultCode) : (complete c s).pwd0 = s.pwd0 := rfl
@[simp] theorem complete_pwd1 (c : ResultCode) : (complete c s).pwd1 = s.pwd1 := rfl
@[simp] theorem complete_crc (c : ResultCode) : (complete c s).crc = s.crc := rfl
@[simp] theorem complete_txlen (c : ResultCode) : (complete c s).txlen = s.txlen := rfl
@[simp] theorem complete_rxlen (c : ResultCode) : (complete c s).rxlen = s.rxlen := rfl
@[simp] theorem complete_val0 (c : ResultCode) : (complete c s).val0 = s.val0 := rfl
@[simp] theorem complete_val1 (c : ResultCode) : (complete c s).val1 = s.val1 := rfl
@[simp] theorem complete_val2 (c : ResultCode) : (complete c s).val2 = s.val2 := rfl
@[simp] theorem complete_val3 (c : ResultCode) : (complete c s).val3 = s.val3 := rfl
@[simp] theorem complete_tx (c : ResultCode) : (complete c s).tx = s.tx := rfl
@[simp] theorem complete_rx (c : ResultCode) : (complete c s).rx = s.rx := rfl
@[simp] theorem complete_pending (c : ResultCode) : (complete c s).pending = s.pending := rfl
@[simp] theorem complete_timer (c : ResultCode) : (complete c s).timer = s.timer := rfl
@[simp] theorem complete_chanWrites (c : ResultCode) : (complete c s).chanWrites = s.chanWrites := rfl
@[simp] theorem complete_chanWaits (c : ResultCode) : (complete c s).chanWaits = s.chanWaits := rfl
@[simp] theorem complete_chanReads (c : ResultCode) : (complete c s).chanReads = s.chanReads := rfl
@[simp] theorem complete_sent (c : ResultCode) : (complete c s).sent = s.sent := rfl
@[simp] theorem complete_schedule (c : ResultCode) : (complete c s).schedule = s.schedule := rfl
@[simp] theorem complete_program (c : ResultCode) : (complete c s).program = s.program := rfl
@[simp] theorem complete_hostReads (c : ResultCode) : (complete c s).hostReads = s.hostReads := rfl
@[simp] theorem complete_draws (c : ResultCode) : (complete c s).draws = s.draws := rfl

/-! `accept` -/

@[simp] theorem accept_busy (w : Word) : (accept w s).busy = true := rfl
@[simp] theorem accept_done (w : Word) : (accept w s).done = false := rfl
@[simp] theorem accept_dvalid (w : Word) : (accept w s).dvalid = false := rfl
@[simp] theorem accept_cmderr (w : Word) : (accept w s).cmderr = false := rfl
@[simp] theorem accept_result (w : Word) : (accept w s).result = s.result := rfl
@[simp] theorem accept_xstate (w : Word) : (accept w s).xstate = .exec := rfl
@[simp] theorem accept_devaddr (w : Word) : (accept w s).devaddr = s.devaddr := rfl
@[simp] theorem accept_subidx (w : Word) : (accept w s).subidx = s.subidx := rfl
@[simp] theorem accept_eparam (w : Word) : (accept w s).eparam = s.eparam := rfl
@[simp] theorem accept_access (w : Word) : (accept w s).access = s.access := rfl
@[simp] theorem accept_pwd0 (w : Word) : (accept w s).pwd0 = s.pwd0 := rfl
@[simp] theorem accept_pwd1 (w : Word) : (accept w s).pwd1 = s.pwd1 := rfl
@[simp] theorem accept_crc (w : Word) : (accept w s).crc = s.crc := rfl
@[simp] theorem accept_txlen (w : Word) : (accept w s).txlen = s.txlen := rfl
@[simp] theorem accept_rxlen (w : Word) : (accept w s).rxlen = s.rxlen := rfl
@[simp] theorem accept_val0 (w : Word) : (accept w s).val0 = s.val0 := rfl
@[simp] theorem accept_val1 (w : Word) : (accept w s).val1 = s.val1 := rfl
@[simp] theorem accept_val2 (w : Word) : (accept w s).val2 = s.val2 := rfl
@[simp] theorem accept_val3 (w : Word) : (accept w s).val3 = s.val3 := rfl
@[simp] theorem accept_tx (w : Word) : (accept w s).tx = s.tx := rfl
@[simp] theorem accept_rx (w : Word) : (accept w s).rx = s.rx := rfl
@[simp] theorem accept_pending (w : Word) : (accept w s).pending = w := rfl
@[simp] theorem accept_timer (w : Word) : (accept w s).timer = s.timer := rfl
@[simp] theorem accept_chanWrites (w : Word) : (accept w s).chanWrites = s.chanWrites := rfl
@[simp] theorem accept_chanWaits (w : Word) : (accept w s).chanWaits = s.chanWaits := rfl
@[simp] theorem accept_chanReads (w : Word) : (accept w s).chanReads = s.chanReads := rfl
@[simp] theorem accept_sent (w : Word) : (accept w s).sent = s.sent := rfl
@[simp] theorem accept_schedule (w : Word) : (accept w s).schedule = s.schedule := rfl
@[simp] theorem accept_program (w : Word) : (accept w s).program = s.program := rfl
@[simp] theorem accept_hostReads (w : Word) : (accept w s).hostReads = s.hostReads := rfl
@[simp] theorem accept_draws (w : Word) : (accept w s).draws = s.draws := rfl

/-! `dropCommand` -/

@[simp] theorem dropCommand_busy : (dropCommand s).busy = s.busy := rfl
@[simp] theorem dropCommand_done : (dropCommand s).done = s.done := rfl
@[simp] theorem dropCommand_dvalid : (dropCommand s).dvalid = s.dvalid := rfl
@[simp] theorem dropCommand_cmderr : (dropCommand s).cmderr = true := rfl
@[simp] theorem dropCommand_result : (dropCommand s).result = s.result := rfl
@[simp] theorem dropCommand_xstate : (dropCommand s).xstate = s.xstate := rfl
@[simp] theorem dropCommand_devaddr : (dropCommand s).devaddr = s.devaddr := rfl
@[simp] theorem dropCommand_subidx : (dropCommand s).subidx = s.subidx := rfl
@[simp] theorem dropCommand_eparam : (dropCommand s).eparam = s.eparam := rfl
@[simp] theorem dropCommand_access : (dropCommand s).access = s.access := rfl
@[simp] theorem dropCommand_pwd0 : (dropCommand s).pwd0 = s.pwd0 := rfl
@[simp] theorem dropCommand_pwd1 : (dropCommand s).pwd1 = s.pwd1 := rfl
@[simp] theorem dropCommand_crc : (dropCommand s).crc = s.crc := rfl
@[simp] theorem dropCommand_txlen : (dropCommand s).txlen = s.txlen := rfl
@[simp] theorem dropCommand_rxlen : (dropCommand s).rxlen = s.rxlen := rfl
@[simp] theorem dropCommand_val0 : (dropCommand s).val0 = s.val0 := rfl
@[simp] theorem dropCommand_val1 : (dropCommand s).val1 = s.val1 := rfl
@[simp] theorem dropCommand_val2 : (dropCommand s).val2 = s.val2 := rfl
@[simp] theorem dropCommand_val3 : (dropCommand s).val3 = s.val3 := rfl
@[simp] theorem dropCommand_tx : (dropCommand s).tx = s.tx := rfl
@[simp] theorem dropCommand_rx : (dropCommand s).rx = s.rx := rfl
@[simp] theorem dropCommand_pending : (dropCommand s).pending = s.pending := rfl
@[simp] theorem dropCommand_timer : (dropCommand s).timer = s.timer := rfl
@[simp] theorem dropCommand_chanWrites : (dropCommand s).chanWrites = s.chanWrites := rfl
@[simp] theorem dropCommand_chanWaits : (dropCommand s).chanWaits = s.chanWaits := rfl
@[simp] theorem dropCommand_chanReads : (dropCommand s).chanReads = s.chanReads := rfl
@[simp] theorem dropCommand_sent : (dropCommand s).sent = s.sent := rfl
@[simp] theorem dropCommand_schedule : (dropCommand s).schedule = s.schedule := rfl
@[simp] theorem dropCommand_program : (dropCommand s).program = s.program := rfl
@[simp] theorem dropCommand_hostReads : (dropCommand s).hostReads = s.hostReads := rfl
@[simp] theorem dropCommand_draws : (dropCommand s).draws = s.draws := rfl

/-! `emit` -/

@[simp] theorem emit_busy (b : List Byte) : (emit b s).busy = false := rfl
@[simp] theorem emit_done (b : List Byte) : (emit b s).done = true := rfl
@[simp] theorem emit_dvalid (b : List Byte) : (emit b s).dvalid = s.dvalid := rfl
@[simp] theorem emit_cmderr (b : List Byte) : (emit b s).cmderr = s.cmderr := rfl
@[simp] theorem emit_result (b : List Byte) : (emit b s).result = .ok := rfl
@[simp] theorem emit_xstate (b : List Byte) : (emit b s).xstate = .idle := rfl
@[simp] theorem emit_devaddr (b : List Byte) : (emit b s).devaddr = s.devaddr := rfl
@[simp] theorem emit_subidx (b : List Byte) : (emit b s).subidx = s.subidx := rfl
@[simp] theorem emit_eparam (b : List Byte) : (emit b s).eparam = s.eparam := rfl
@[simp] theorem emit_access (b : List Byte) : (emit b s).access = s.access := rfl
@[simp] theorem emit_pwd0 (b : List Byte) : (emit b s).pwd0 = s.pwd0 := rfl
@[simp] theorem emit_pwd1 (b : List Byte) : (emit b s).pwd1 = s.pwd1 := rfl
@[simp] theorem emit_crc (b : List Byte) : (emit b s).crc = crc16 b := rfl
@[simp] theorem emit_txlen (b : List Byte) : (emit b s).txlen = BitVec.ofNat 8 (withCrc b).length := rfl
@[simp] theorem emit_rxlen (b : List Byte) : (emit b s).rxlen = s.rxlen := rfl
@[simp] theorem emit_val0 (b : List Byte) : (emit b s).val0 = s.val0 := rfl
@[simp] theorem emit_val1 (b : List Byte) : (emit b s).val1 = s.val1 := rfl
@[simp] theorem emit_val2 (b : List Byte) : (emit b s).val2 = s.val2 := rfl
@[simp] theorem emit_val3 (b : List Byte) : (emit b s).val3 = s.val3 := rfl
@[simp] theorem emit_tx (b : List Byte) : (emit b s).tx = memWriteBytes s.tx 0 (withCrc b) := rfl
@[simp] theorem emit_rx (b : List Byte) : (emit b s).rx = s.rx := rfl
@[simp] theorem emit_pending (b : List Byte) : (emit b s).pending = s.pending := rfl
@[simp] theorem emit_timer (b : List Byte) : (emit b s).timer = s.timer := rfl
@[simp] theorem emit_chanWrites (b : List Byte) : (emit b s).chanWrites = s.chanWrites := rfl
@[simp] theorem emit_chanWaits (b : List Byte) : (emit b s).chanWaits = s.chanWaits := rfl
@[simp] theorem emit_chanReads (b : List Byte) : (emit b s).chanReads = s.chanReads := rfl
@[simp] theorem emit_sent (b : List Byte) : (emit b s).sent = s.sent := rfl
@[simp] theorem emit_schedule (b : List Byte) : (emit b s).schedule = s.schedule := rfl
@[simp] theorem emit_program (b : List Byte) : (emit b s).program = s.program := rfl
@[simp] theorem emit_hostReads (b : List Byte) : (emit b s).hostReads = s.hostReads := rfl
@[simp] theorem emit_draws (b : List Byte) : (emit b s).draws = s.draws := rfl

/-! `receive` -/

@[simp] theorem receive_busy (r : List Byte) : (receive r s).busy = false := rfl
@[simp] theorem receive_done (r : List Byte) : (receive r s).done = true := rfl
@[simp] theorem receive_dvalid (r : List Byte) : (receive r s).dvalid = s.dvalid := rfl
@[simp] theorem receive_cmderr (r : List Byte) : (receive r s).cmderr = s.cmderr := rfl
@[simp] theorem receive_result (r : List Byte) : (receive r s).result = .ok := rfl
@[simp] theorem receive_xstate (r : List Byte) : (receive r s).xstate = .idle := rfl
@[simp] theorem receive_devaddr (r : List Byte) : (receive r s).devaddr = s.devaddr := rfl
@[simp] theorem receive_subidx (r : List Byte) : (receive r s).subidx = s.subidx := rfl
@[simp] theorem receive_eparam (r : List Byte) : (receive r s).eparam = s.eparam := rfl
@[simp] theorem receive_access (r : List Byte) : (receive r s).access = s.access := rfl
@[simp] theorem receive_pwd0 (r : List Byte) : (receive r s).pwd0 = s.pwd0 := rfl
@[simp] theorem receive_pwd1 (r : List Byte) : (receive r s).pwd1 = s.pwd1 := rfl
@[simp] theorem receive_crc (r : List Byte) : (receive r s).crc = s.crc := rfl
@[simp] theorem receive_txlen (r : List Byte) : (receive r s).txlen = s.txlen := rfl
@[simp] theorem receive_rxlen (r : List Byte) : (receive r s).rxlen = BitVec.ofNat 8 r.length := rfl
@[simp] theorem receive_val0 (r : List Byte) : (receive r s).val0 = s.val0 := rfl
@[simp] theorem receive_val1 (r : List Byte) : (receive r s).val1 = s.val1 := rfl
@[simp] theorem receive_val2 (r : List Byte) : (receive r s).val2 = s.val2 := rfl
@[simp] theorem receive_val3 (r : List Byte) : (receive r s).val3 = s.val3 := rfl
@[simp] theorem receive_tx (r : List Byte) : (receive r s).tx = s.tx := rfl
@[simp] theorem receive_rx (r : List Byte) : (receive r s).rx = memWriteBytes s.rx 0 r := rfl
@[simp] theorem receive_pending (r : List Byte) : (receive r s).pending = s.pending := rfl
@[simp] theorem receive_timer (r : List Byte) : (receive r s).timer = s.timer := rfl
@[simp] theorem receive_chanWrites (r : List Byte) : (receive r s).chanWrites = s.chanWrites := rfl
@[simp] theorem receive_chanWaits (r : List Byte) : (receive r s).chanWaits = s.chanWaits := rfl
@[simp] theorem receive_chanReads (r : List Byte) : (receive r s).chanReads = s.chanReads := rfl
@[simp] theorem receive_sent (r : List Byte) : (receive r s).sent = s.sent := rfl
@[simp] theorem receive_schedule (r : List Byte) : (receive r s).schedule = s.schedule := rfl
@[simp] theorem receive_program (r : List Byte) : (receive r s).program = s.program := rfl
@[simp] theorem receive_hostReads (r : List Byte) : (receive r s).hostReads = s.hostReads := rfl
@[simp] theorem receive_draws (r : List Byte) : (receive r s).draws = s.draws := rfl

/-! `exchangeFailed` -/

@[simp] theorem exchangeFailed_busy (c : ResultCode) : (exchangeFailed c s).busy = false := rfl
@[simp] theorem exchangeFailed_done (c : ResultCode) : (exchangeFailed c s).done = true := rfl
@[simp] theorem exchangeFailed_dvalid (c : ResultCode) : (exchangeFailed c s).dvalid = s.dvalid := rfl
@[simp] theorem exchangeFailed_cmderr (c : ResultCode) : (exchangeFailed c s).cmderr = s.cmderr := rfl
@[simp] theorem exchangeFailed_result (c : ResultCode) : (exchangeFailed c s).result = c := rfl
@[simp] theorem exchangeFailed_xstate (c : ResultCode) : (exchangeFailed c s).xstate = .idle := rfl
@[simp] theorem exchangeFailed_devaddr (c : ResultCode) : (exchangeFailed c s).devaddr = s.devaddr := rfl
@[simp] theorem exchangeFailed_subidx (c : ResultCode) : (exchangeFailed c s).subidx = s.subidx := rfl
@[simp] theorem exchangeFailed_eparam (c : ResultCode) : (exchangeFailed c s).eparam = s.eparam := rfl
@[simp] theorem exchangeFailed_access (c : ResultCode) : (exchangeFailed c s).access = s.access := rfl
@[simp] theorem exchangeFailed_pwd0 (c : ResultCode) : (exchangeFailed c s).pwd0 = s.pwd0 := rfl
@[simp] theorem exchangeFailed_pwd1 (c : ResultCode) : (exchangeFailed c s).pwd1 = s.pwd1 := rfl
@[simp] theorem exchangeFailed_crc (c : ResultCode) : (exchangeFailed c s).crc = s.crc := rfl
@[simp] theorem exchangeFailed_txlen (c : ResultCode) : (exchangeFailed c s).txlen = s.txlen := rfl
@[simp] theorem exchangeFailed_rxlen (c : ResultCode) : (exchangeFailed c s).rxlen = 0 := rfl
@[simp] theorem exchangeFailed_val0 (c : ResultCode) : (exchangeFailed c s).val0 = s.val0 := rfl
@[simp] theorem exchangeFailed_val1 (c : ResultCode) : (exchangeFailed c s).val1 = s.val1 := rfl
@[simp] theorem exchangeFailed_val2 (c : ResultCode) : (exchangeFailed c s).val2 = s.val2 := rfl
@[simp] theorem exchangeFailed_val3 (c : ResultCode) : (exchangeFailed c s).val3 = s.val3 := rfl
@[simp] theorem exchangeFailed_tx (c : ResultCode) : (exchangeFailed c s).tx = s.tx := rfl
@[simp] theorem exchangeFailed_rx (c : ResultCode) : (exchangeFailed c s).rx = s.rx := rfl
@[simp] theorem exchangeFailed_pending (c : ResultCode) : (exchangeFailed c s).pending = s.pending := rfl
@[simp] theorem exchangeFailed_timer (c : ResultCode) : (exchangeFailed c s).timer = s.timer := rfl
@[simp] theorem exchangeFailed_chanWrites (c : ResultCode) : (exchangeFailed c s).chanWrites = s.chanWrites := rfl
@[simp] theorem exchangeFailed_chanWaits (c : ResultCode) : (exchangeFailed c s).chanWaits = s.chanWaits := rfl
@[simp] theorem exchangeFailed_chanReads (c : ResultCode) : (exchangeFailed c s).chanReads = s.chanReads := rfl
@[simp] theorem exchangeFailed_sent (c : ResultCode) : (exchangeFailed c s).sent = s.sent := rfl
@[simp] theorem exchangeFailed_schedule (c : ResultCode) : (exchangeFailed c s).schedule = s.schedule := rfl
@[simp] theorem exchangeFailed_program (c : ResultCode) : (exchangeFailed c s).program = s.program := rfl
@[simp] theorem exchangeFailed_hostReads (c : ResultCode) : (exchangeFailed c s).hostReads = s.hostReads := rfl
@[simp] theorem exchangeFailed_draws (c : ResultCode) : (exchangeFailed c s).draws = s.draws := rfl

/-! `decoded` -/

@[simp] theorem decoded_busy (v : Values) : (decoded v s).busy = false := rfl
@[simp] theorem decoded_done (v : Values) : (decoded v s).done = true := rfl
@[simp] theorem decoded_dvalid (v : Values) : (decoded v s).dvalid = true := rfl
@[simp] theorem decoded_cmderr (v : Values) : (decoded v s).cmderr = s.cmderr := rfl
@[simp] theorem decoded_result (v : Values) : (decoded v s).result = .ok := rfl
@[simp] theorem decoded_xstate (v : Values) : (decoded v s).xstate = .idle := rfl
@[simp] theorem decoded_devaddr (v : Values) : (decoded v s).devaddr = s.devaddr := rfl
@[simp] theorem decoded_subidx (v : Values) : (decoded v s).subidx = s.subidx := rfl
@[simp] theorem decoded_eparam (v : Values) : (decoded v s).eparam = s.eparam := rfl
@[simp] theorem decoded_access (v : Values) : (decoded v s).access = s.access := rfl
@[simp] theorem decoded_pwd0 (v : Values) : (decoded v s).pwd0 = s.pwd0 := rfl
@[simp] theorem decoded_pwd1 (v : Values) : (decoded v s).pwd1 = s.pwd1 := rfl
@[simp] theorem decoded_crc (v : Values) : (decoded v s).crc = s.crc := rfl
@[simp] theorem decoded_txlen (v : Values) : (decoded v s).txlen = s.txlen := rfl
@[simp] theorem decoded_rxlen (v : Values) : (decoded v s).rxlen = s.rxlen := rfl
@[simp] theorem decoded_val0 (v : Values) : (decoded v s).val0 = v.val0 := rfl
@[simp] theorem decoded_val1 (v : Values) : (decoded v s).val1 = v.val1 := rfl
@[simp] theorem decoded_val2 (v : Values) : (decoded v s).val2 = v.val2 := rfl
@[simp] theorem decoded_val3 (v : Values) : (decoded v s).val3 = v.val3 := rfl
@[simp] theorem decoded_tx (v : Values) : (decoded v s).tx = s.tx := rfl
@[simp] theorem decoded_rx (v : Values) : (decoded v s).rx = s.rx := rfl
@[simp] theorem decoded_pending (v : Values) : (decoded v s).pending = s.pending := rfl
@[simp] theorem decoded_timer (v : Values) : (decoded v s).timer = s.timer := rfl
@[simp] theorem decoded_chanWrites (v : Values) : (decoded v s).chanWrites = s.chanWrites := rfl
@[simp] theorem decoded_chanWaits (v : Values) : (decoded v s).chanWaits = s.chanWaits := rfl
@[simp] theorem decoded_chanReads (v : Values) : (decoded v s).chanReads = s.chanReads := rfl
@[simp] theorem decoded_sent (v : Values) : (decoded v s).sent = s.sent := rfl
@[simp] theorem decoded_schedule (v : Values) : (decoded v s).schedule = s.schedule := rfl
@[simp] theorem decoded_program (v : Values) : (decoded v s).program = s.program := rfl
@[simp] theorem decoded_hostReads (v : Values) : (decoded v s).hostReads = s.hostReads := rfl
@[simp] theorem decoded_draws (v : Values) : (decoded v s).draws = s.draws := rfl

/-! `stepStart` -/

@[simp] theorem stepStart_busy : (stepStart s).busy = s.busy := rfl
@[simp] theorem stepStart_done : (stepStart s).done = s.done := rfl
@[simp] theorem stepStart_dvalid : (stepStart s).dvalid = s.dvalid := rfl
@[simp] theorem stepStart_cmderr : (stepStart s).cmderr = s.cmderr := rfl
@[simp] theorem stepStart_result : (stepStart s).result = s.result := rfl
@[simp] theorem stepStart_xstate : (stepStart s).xstate = s.xstate := rfl
@[simp] theorem stepStart_devaddr : (stepStart s).devaddr = s.devaddr := rfl
@[simp] theorem stepStart_subidx : (stepStart s).subidx = s.subidx := rfl
@[simp] theorem stepStart_eparam : (stepStart s).eparam = s.eparam := rfl
@[simp] theorem stepStart_access : (stepStart s).access = s.access := rfl
@[simp] theorem stepStart_pwd0 : (stepStart s).pwd0 = s.pwd0 := rfl
@[simp] theorem stepStart_pwd1 : (stepStart s).pwd1 = s.pwd1 := rfl
@[simp] theorem stepStart_crc : (stepStart s).crc = s.crc := rfl
@[simp] theorem stepStart_txlen : (stepStart s).txlen = s.txlen := rfl
@[simp] theorem stepStart_rxlen : (stepStart s).rxlen = s.rxlen := rfl
@[simp] theorem stepStart_val0 : (stepStart s).val0 = s.val0 := rfl
@[simp] theorem stepStart_val1 : (stepStart s).val1 = s.val1 := rfl
@[simp] theorem stepStart_val2 : (stepStart s).val2 = s.val2 := rfl
@[simp] theorem stepStart_val3 : (stepStart s).val3 = s.val3 := rfl
@[simp] theorem stepStart_tx : (stepStart s).tx = s.tx := rfl
@[simp] theorem stepStart_rx : (stepStart s).rx = s.rx := rfl
@[simp] theorem stepStart_pending : (stepStart s).pending = s.pending := rfl
@[simp] theorem stepStart_timer : (stepStart s).timer = s.timer := rfl
@[simp] theorem stepStart_chanWrites : (stepStart s).chanWrites = s.chanWrites := rfl
@[simp] theorem stepStart_chanWaits : (stepStart s).chanWaits = s.chanWaits := rfl
@[simp] theorem stepStart_chanReads : (stepStart s).chanReads = s.chanReads := rfl
@[simp] theorem stepStart_sent : (stepStart s).sent = s.sent := rfl
@[simp] theorem stepStart_schedule : (stepStart s).schedule = s.schedule.tail := rfl
@[simp] theorem stepStart_program : (stepStart s).program = s.program := rfl
@[simp] theorem stepStart_hostReads : (stepStart s).hostReads = s.hostReads := rfl
@[simp] theorem stepStart_draws : (stepStart s).draws = s.draws + 1 := rfl

/-! `resetMachine` -/

@[simp] theorem resetMachine_busy : (resetMachine s).busy = State.reset.busy := rfl
@[simp] theorem resetMachine_done : (resetMachine s).done = State.reset.done := rfl
@[simp] theorem resetMachine_dvalid : (resetMachine s).dvalid = State.reset.dvalid := rfl
@[simp] theorem resetMachine_cmderr : (resetMachine s).cmderr = State.reset.cmderr := rfl
@[simp] theorem resetMachine_result : (resetMachine s).result = State.reset.result := rfl
@[simp] theorem resetMachine_xstate : (resetMachine s).xstate = State.reset.xstate := rfl
@[simp] theorem resetMachine_devaddr : (resetMachine s).devaddr = State.reset.devaddr := rfl
@[simp] theorem resetMachine_subidx : (resetMachine s).subidx = State.reset.subidx := rfl
@[simp] theorem resetMachine_eparam : (resetMachine s).eparam = State.reset.eparam := rfl
@[simp] theorem resetMachine_access : (resetMachine s).access = State.reset.access := rfl
@[simp] theorem resetMachine_pwd0 : (resetMachine s).pwd0 = State.reset.pwd0 := rfl
@[simp] theorem resetMachine_pwd1 : (resetMachine s).pwd1 = State.reset.pwd1 := rfl
@[simp] theorem resetMachine_crc : (resetMachine s).crc = State.reset.crc := rfl
@[simp] theorem resetMachine_txlen : (resetMachine s).txlen = State.reset.txlen := rfl
@[simp] theorem resetMachine_rxlen : (resetMachine s).rxlen = State.reset.rxlen := rfl
@[simp] theorem resetMachine_val0 : (resetMachine s).val0 = State.reset.val0 := rfl
@[simp] theorem resetMachine_val1 : (resetMachine s).val1 = State.reset.val1 := rfl
@[simp] theorem resetMachine_val2 : (resetMachine s).val2 = State.reset.val2 := rfl
@[simp] theorem resetMachine_val3 : (resetMachine s).val3 = State.reset.val3 := rfl
@[simp] theorem resetMachine_tx : (resetMachine s).tx = State.reset.tx := rfl
@[simp] theorem resetMachine_rx : (resetMachine s).rx = State.reset.rx := rfl
@[simp] theorem resetMachine_pending : (resetMachine s).pending = State.reset.pending := rfl
@[simp] theorem resetMachine_timer : (resetMachine s).timer = State.reset.timer := rfl
@[simp] theorem resetMachine_chanWrites : (resetMachine s).chanWrites = s.chanWrites := rfl
@[simp] theorem resetMachine_chanWaits : (resetMachine s).chanWaits = s.chanWaits := rfl
@[simp] theorem resetMachine_chanReads : (resetMachine s).chanReads = s.chanReads := rfl
@[simp] theorem resetMachine_sent : (resetMachine s).sent = s.sent := rfl
@[simp] theorem resetMachine_schedule : (resetMachine s).schedule = s.schedule := rfl
@[simp] theorem resetMachine_program : (resetMachine s).program = s.program := rfl
@[simp] theorem resetMachine_hostReads : (resetMachine s).hostReads = s.hostReads := rfl
@[simp] theorem resetMachine_draws : (resetMachine s).draws = s.draws := rfl

/-! `timePasses`: only TIMER. -/

@[simp] theorem timePasses_busy (ms : Nat) : (timePasses ms s).busy = s.busy := by
  unfold timePasses; split <;> rfl
@[simp] theorem timePasses_done (ms : Nat) : (timePasses ms s).done = s.done := by
  unfold timePasses; split <;> rfl
@[simp] theorem timePasses_dvalid (ms : Nat) : (timePasses ms s).dvalid = s.dvalid := by
  unfold timePasses; split <;> rfl
@[simp] theorem timePasses_cmderr (ms : Nat) : (timePasses ms s).cmderr = s.cmderr := by
  unfold timePasses; split <;> rfl
@[simp] theorem timePasses_result (ms : Nat) : (timePasses ms s).result = s.result := by
  unfold timePasses; split <;> rfl
@[simp] theorem timePasses_xstate (ms : Nat) : (timePasses ms s).xstate = s.xstate := by
  unfold timePasses; split <;> rfl
@[simp] theorem timePasses_devaddr (ms : Nat) : (timePasses ms s).devaddr = s.devaddr := by
  unfold timePasses; split <;> rfl
@[simp] theorem timePasses_subidx (ms : Nat) : (timePasses ms s).subidx = s.subidx := by
  unfold timePasses; split <;> rfl
@[simp] theorem timePasses_eparam (ms : Nat) : (timePasses ms s).eparam = s.eparam := by
  unfold timePasses; split <;> rfl
@[simp] theorem timePasses_access (ms : Nat) : (timePasses ms s).access = s.access := by
  unfold timePasses; split <;> rfl
@[simp] theorem timePasses_pwd0 (ms : Nat) : (timePasses ms s).pwd0 = s.pwd0 := by
  unfold timePasses; split <;> rfl
@[simp] theorem timePasses_pwd1 (ms : Nat) : (timePasses ms s).pwd1 = s.pwd1 := by
  unfold timePasses; split <;> rfl
@[simp] theorem timePasses_crc (ms : Nat) : (timePasses ms s).crc = s.crc := by
  unfold timePasses; split <;> rfl
@[simp] theorem timePasses_txlen (ms : Nat) : (timePasses ms s).txlen = s.txlen := by
  unfold timePasses; split <;> rfl
@[simp] theorem timePasses_rxlen (ms : Nat) : (timePasses ms s).rxlen = s.rxlen := by
  unfold timePasses; split <;> rfl
@[simp] theorem timePasses_val0 (ms : Nat) : (timePasses ms s).val0 = s.val0 := by
  unfold timePasses; split <;> rfl
@[simp] theorem timePasses_val1 (ms : Nat) : (timePasses ms s).val1 = s.val1 := by
  unfold timePasses; split <;> rfl
@[simp] theorem timePasses_val2 (ms : Nat) : (timePasses ms s).val2 = s.val2 := by
  unfold timePasses; split <;> rfl
@[simp] theorem timePasses_val3 (ms : Nat) : (timePasses ms s).val3 = s.val3 := by
  unfold timePasses; split <;> rfl
@[simp] theorem timePasses_tx (ms : Nat) : (timePasses ms s).tx = s.tx := by
  unfold timePasses; split <;> rfl
@[simp] theorem timePasses_rx (ms : Nat) : (timePasses ms s).rx = s.rx := by
  unfold timePasses; split <;> rfl
@[simp] theorem timePasses_pending (ms : Nat) : (timePasses ms s).pending = s.pending := by
  unfold timePasses; split <;> rfl
@[simp] theorem timePasses_chanWrites (ms : Nat) : (timePasses ms s).chanWrites = s.chanWrites := by
  unfold timePasses; split <;> rfl
@[simp] theorem timePasses_chanWaits (ms : Nat) : (timePasses ms s).chanWaits = s.chanWaits := by
  unfold timePasses; split <;> rfl
@[simp] theorem timePasses_chanReads (ms : Nat) : (timePasses ms s).chanReads = s.chanReads := by
  unfold timePasses; split <;> rfl
@[simp] theorem timePasses_sent (ms : Nat) : (timePasses ms s).sent = s.sent := by
  unfold timePasses; split <;> rfl
@[simp] theorem timePasses_schedule (ms : Nat) : (timePasses ms s).schedule = s.schedule := by
  unfold timePasses; split <;> rfl
@[simp] theorem timePasses_program (ms : Nat) : (timePasses ms s).program = s.program := by
  unfold timePasses; split <;> rfl
@[simp] theorem timePasses_hostReads (ms : Nat) : (timePasses ms s).hostReads = s.hostReads := by
  unfold timePasses; split <;> rfl
@[simp] theorem timePasses_draws (ms : Nat) : (timePasses ms s).draws = s.draws := by
  unfold timePasses; split <;> rfl

end Sys2Proof.Machine
end

