-- ==== Sys2Proof/Laws/Ops.lean ====
section
/-! SUPPORT. One lemma per shared operation that says everything it can do; later proofs cite it and do not unfold the
operation. -/

namespace Sys2Proof.Machine

/-! Frames. -/

@[simp] theorem withCrc_length (b : List Byte) : (withCrc b).length = b.length + 2 := by
  simp [withCrc, crcBytes]

@[simp] theorem frameBody_withCrc (b : List Byte) : frameBody (withCrc b) = b := by
  rw [frameBody, withCrc_length]
  simp [withCrc]

@[simp] theorem crcMatches_withCrc (b : List Byte) : crcMatches (withCrc b) = true := by
  rw [crcMatches, frameBody_withCrc, withCrc_length]
  simp

theorem crcMatches_iff (bs : List Byte) : crcMatches bs = true ↔ ∃ b, bs = withCrc b := by
  constructor
  · intro h
    simp only [crcMatches, Bool.and_eq_true, beq_iff_eq] at h
    exact ⟨_, h.2.symm⟩
  · rintro ⟨b, rfl⟩; exact crcMatches_withCrc b

/-! Buffers. -/

theorem holdsFrame_memWriteBytes (f : List Byte) (m : Memory) :
    HoldsFrame f (memWriteBytes m 0 f) m := by
  intro i
  rw [memRead_memWriteBytes]
  simp

theorem holdsFrame_emit (b : List Byte) (s : State) :
    HoldsFrame (withCrc b) (emit b s).tx s.tx := by
  simpa using holdsFrame_memWriteBytes (withCrc b) s.tx

theorem holdsFrame_receive (r : List Byte) (s : State) :
    HoldsFrame r (receive r s).rx s.rx := by
  simpa using holdsFrame_memWriteBytes r s.rx

theorem txByte_of_txHolds {f : List Byte} {s : State} (h : TxHolds f s) {i : Nat}
    (hi : i < f.length) : txByte s i = f[i] := by
  simp [txByte, h.2 i hi, List.getElem?_eq_getElem hi]

theorem rxByte_of_rxHolds {f : List Byte} {s : State} (h : RxHolds f s) {i : Nat}
    (hi : i < f.length) : rxByte s i = f[i] := by
  simp [rxByte, h.2 i hi, List.getElem?_eq_getElem hi]

theorem txFrame_of_txHolds {f : List Byte} {s : State} (h : TxHolds f s) : txFrame s = f := by
  apply List.ext_getElem
  · simp [txFrame, h.1]
  · intro i _ h2
    simpa [txFrame] using txByte_of_txHolds h h2

theorem rxBytes_of_rxHolds {f : List Byte} {s : State} (h : RxHolds f s) {n : Nat}
    (hn : n ≤ f.length) : rxBytes s n = f.take n := by
  apply List.ext_getElem
  · simp [rxBytes, hn]
  · intro i h1 h2
    have hi : i < f.length := by simp at h2; omega
    simpa [rxBytes] using rxByte_of_rxHolds h hi

/-! The blocks of the commands. -/

/-- `validate` and what follows it: WRONG_SIZE, else WRONG_CRC, else the values. -/
theorem decodeRx_cases (n : Nat) (v : Values) (s : State) :
    (s.rxlen.toNat ≠ n ∧ decodeRx n v s = complete .wrongSize s) ∨
    (s.rxlen.toNat = n ∧ storedCrcIs (crc16 (rxBytes s (n - 2))) n s = true ∧
      decodeRx n v s = decoded v { s with crc := crc16 (rxBytes s (n - 2)) }) ∨
    (s.rxlen.toNat = n ∧ storedCrcIs (crc16 (rxBytes s (n - 2))) n s = false ∧
      decodeRx n v s = complete .wrongCrc { s with crc := crc16 (rxBytes s (n - 2)) }) := by
  unfold decodeRx
  split
  · exact .inl ⟨‹_›, rfl⟩
  · rename_i h
    split
    · exact .inr (.inl ⟨by simpa using h, ‹_›, rfl⟩)
    · rename_i hc
      exact .inr (.inr ⟨by simpa using h, Bool.eq_false_iff.2 hc, rfl⟩)

theorem sendFrame_cases (f : List Byte) (s : State) :
    (nextWrite s = .ok ∧ sendFrame f s =
      { s with
        chanWrites := s.chanWrites.tail, sent := s.sent ++ [f], xstate := .turn, timer := 0 }) ∨
    (nextWrite s = .err ∧
      sendFrame f s = exchangeFailed .ioError { s with chanWrites := s.chanWrites.tail }) := by
  unfold sendFrame
  split
  · exact .inl ⟨‹_›, rfl⟩
  · exact .inr ⟨‹_›, rfl⟩

theorem nextRead_length {s : State} {r : List Byte} (h : nextRead s = .bytes r) :
    r.length ≤ Config.rxCap := by
  unfold nextRead atMost at h
  split at h
  · injection h with h; subst h; simp
  · cases h

theorem waitAndRead_cases (s : State) :
    (nextWait s = .expired ∧ waitAndRead s = exchangeFailed .timeout
      { s with chanWaits := s.chanWaits.tail, timer := Config.timeoutMs }) ∨
    (nextWait s = .readable ∧ (nextRead s = .err ∨ nextRead s = .bytes []) ∧
      waitAndRead s = exchangeFailed .ioError
        { s with chanWaits := s.chanWaits.tail, chanReads := s.chanReads.tail }) ∨
    (nextWait s = .readable ∧ ∃ r, nextRead s = .bytes r ∧ 1 ≤ r.length ∧
      r.length ≤ Config.rxCap ∧ waitAndRead s = receive r
        { s with chanWaits := s.chanWaits.tail, chanReads := s.chanReads.tail }) := by
  unfold waitAndRead
  split
  · exact .inl ⟨‹_›, rfl⟩
  · cases hr : nextRead s with
    | err => exact .inr (.inl ⟨‹_›, .inl rfl, rfl⟩)
    | bytes r =>
      cases r with
      | nil => exact .inr (.inl ⟨‹_›, .inr rfl, rfl⟩)
      | cons b r =>
        exact .inr (.inr ⟨‹_›, b :: r, rfl, by simp, nextRead_length hr, rfl⟩)

theorem startExchange_cases (s : State) :
    (s.txlen = 0 ∧ startExchange s = complete .noFrame s) ∨
    (s.txlen ≠ 0 ∧ startExchange s = { s with xstate := .send }) := by
  unfold startExchange
  split
  · exact .inl ⟨‹_›, rfl⟩
  · exact .inr ⟨‹_›, rfl⟩

/-- What XCHG can answer, by the controller state. -/
theorem execXchg_cases (s : State) :
    ((s.xstate = .idle ∨ s.xstate = .exec) ∧ execXchg s = .next (startExchange s)) ∨
    (s.xstate = .send ∧ execXchg s = .next (sendFrame (txFrame s) s)) ∨
    (s.xstate = .turn ∧ execXchg s = .next { s with xstate := .wait, timer := 0 }) ∨
    (s.xstate = .wait ∧ execXchg s = .next (waitAndRead s)) := by
  unfold execXchg
  cases h : s.xstate <;> simp

/-- Every instruction answers a next state: the MFE has no trap (spec/60_exceptions.md R222). -/
theorem exec_next (i : Instr) (s : State) : ∃ t, exec i s = .next t := by
  cases i
  case xchg =>
    rcases execXchg_cases s with h | h | h | h <;> exact ⟨_, h.2⟩
  all_goals exact ⟨_, rfl⟩

/-- A host write while BUSY = 1. -/
theorem regWrite_busy {s : State} (h : s.busy = true) (off : Nat) (w : Word) :
    regWrite off w s = if regAt off = .cmd then dropCommand s else s := by
  unfold regWrite
  rw [if_pos h]
  split
  · rw [if_pos ‹_›]
  · rw [if_neg ‹_›]

theorem regWrite_idle {s : State} (h : s.busy = false) (off : Nat) (w : Word) :
    regWrite off w s = writeReg w s (regAt off) := by
  simp [regWrite, h]

end Sys2Proof.Machine
end

