-- ==== Sys2Proof/Laws/PerInstr.lean ====
section
/-! SUPPORT. Statements made of every instruction as syntax, one lemma per constructor: the length of its encoding is
the one that spec/opcode_table.json gives its row (a command word has 4 bytes). -/

namespace Sys2Proof.Laws.EncodeLength

open Sys2Proof Sys2Proof.Machine

/-- The table's `length` of a row. -/
def tableLength : Instr → Nat
  | .wireRequestOpenSession .. => 11
  | .wireRequestProbe _ | .wireRequestCloseSession _ | .wireResponseStatus .. => 4
  | .wireRequestReadVoltage _ | .wireRequestReadCurrent _ | .wireRequestReadAngle _ => 6
  | .wireRequestReadCosPhi _ | .wireRequestReadFrequency _ => 6
  | .wireRequestReadActivePower _ | .wireRequestReadReactivePower _ => 6
  | .wireRequestReadEnergyCounters .. | .wireResponseScalar3 .. => 6
  | .wireResponsePhase3 .. => 12
  | .wireResponseSumphase3 .. => 15
  | .wireResponseEnergy4 .. => 19
  | _ => 4

def Statement (i : Instr) : Prop := (encode i).length = tableLength i

theorem crcInit : Statement .crcInit := rfl
theorem crcByte (b : Byte) : Statement (.crcByte b) := rfl
theorem encProbe : Statement .encProbe := rfl
theorem encOpen : Statement .encOpen := rfl
theorem encClose : Statement .encClose := rfl
theorem encAux : Statement .encAux := rfl
theorem encEnergy : Statement .encEnergy := rfl
theorem decStatus : Statement .decStatus := rfl
theorem decScalar3 : Statement .decScalar3 := rfl
theorem decPhase3 : Statement .decPhase3 := rfl
theorem decSumphase3 : Statement .decSumphase3 := rfl
theorem decEnergy4 : Statement .decEnergy4 := rfl
theorem xchg : Statement .xchg := rfl
theorem illegal (w : Word) : Statement (.illegal w) := rfl
theorem wireRequestProbe (a : Byte) : Statement (.wireRequestProbe a) := withCrc_length _
theorem wireRequestOpenSession (a l p0 p1 p2 p3 p4 p5 : Byte) :
    Statement (.wireRequestOpenSession a l p0 p1 p2 p3 p4 p5) := withCrc_length _
theorem wireRequestCloseSession (a : Byte) : Statement (.wireRequestCloseSession a) := withCrc_length _
theorem wireRequestReadVoltage (a : Byte) : Statement (.wireRequestReadVoltage a) := withCrc_length _
theorem wireRequestReadCurrent (a : Byte) : Statement (.wireRequestReadCurrent a) := withCrc_length _
theorem wireRequestReadAngle (a : Byte) : Statement (.wireRequestReadAngle a) := withCrc_length _
theorem wireRequestReadCosPhi (a : Byte) : Statement (.wireRequestReadCosPhi a) := withCrc_length _
theorem wireRequestReadFrequency (a : Byte) : Statement (.wireRequestReadFrequency a) :=
  withCrc_length _
theorem wireRequestReadActivePower (a : Byte) : Statement (.wireRequestReadActivePower a) :=
  withCrc_length _
theorem wireRequestReadReactivePower (a : Byte) : Statement (.wireRequestReadReactivePower a) :=
  withCrc_length _
theorem wireRequestReadEnergyCounters (a pm t : Byte) :
    Statement (.wireRequestReadEnergyCounters a pm t) := withCrc_length _
theorem wireResponseStatus (a st : Byte) : Statement (.wireResponseStatus a st) := withCrc_length _
theorem wireResponseScalar3 (a : Byte) (v : Group3) : Statement (.wireResponseScalar3 a v) :=
  withCrc_length _
theorem wireResponsePhase3 (a : Byte) (p1 p2 p3 : Group3) :
    Statement (.wireResponsePhase3 a p1 p2 p3) := withCrc_length _
theorem wireResponseSumphase3 (a : Byte) (sum p1 p2 p3 : Group3) :
    Statement (.wireResponseSumphase3 a sum p1 p2 p3) := withCrc_length _
theorem wireResponseEnergy4 (a : Byte) (ap am rp rm : Group4) :
    Statement (.wireResponseEnergy4 a ap am rp rm) := withCrc_length _

end Sys2Proof.Laws.EncodeLength
end

