-- ==== Sys2Proof/Laws/Step.lean ====
section
/-! SUPPORT. Everything a step can do, said once. -/

namespace Sys2Proof.Machine

theorem controllerStep_cases {s t : State} (h : controllerStep s = .next t) :
    (controllerEnabled s = true ∧ exec (currentInstr s) s = .next t) ∨ t = s := by
  unfold controllerStep at h
  split at h
  · exact .inl ⟨‹_›, h⟩
  · injection h with h; exact .inr h.symm

theorem windowOffset_busAddress {off : Nat} (h : off < Config.winSize) :
    windowOffset (busAddress off) = some off := by
  unfold windowOffset busAddress
  rw [if_pos ⟨by omega, by omega⟩]
  congr 1
  omega

theorem windowOffset_lt {address off : Nat} (h : windowOffset address = some off) :
    off < Config.winSize ∧ address = busAddress off := by
  unfold windowOffset at h
  split at h
  · injection h with h
    unfold busAddress
    omega
  · cases h

theorem windowOffset_outside {address : Nat}
    (h : address < busAddress 0x000 ∨ busAddress 0x200 ≤ address) : windowOffset address = none := by
  unfold windowOffset
  unfold busAddress at h
  rw [if_neg (by unfold Config.winSize; omega)]

theorem hostRead_next {address width : Nat} {s t : State}
    (h : hostRead address width s = .next t) : ∃ off, t = observe (regAt off) s := by
  unfold hostRead at h
  split at h
  · cases h
  · split at h
    · injection h with h
      exact ⟨_, h.symm⟩
    · cases h

theorem hostWrite_next {address width : Nat} {w : Word} {s t : State}
    (h : hostWrite address width w s = .next t) : ∃ off, t = regWrite off w s := by
  unfold hostWrite at h
  split at h
  · cases h
  · split at h
    · injection h with h
      exact ⟨_, h.symm⟩
    · cases h

theorem hostRead_supported {off : Nat} (h : off < Config.winSize) (h4 : off % 4 = 0) (s : State) :
    hostRead (busAddress off) 32 s = .next (observe (regAt off) s) := by
  simp [hostRead, windowOffset_busAddress h, supportedAccess, h4]

theorem hostWrite_supported {off : Nat} (h : off < Config.winSize) (h4 : off % 4 = 0) (w : Word)
    (s : State) : hostWrite (busAddress off) 32 w s = .next (regWrite off w s) := by
  simp [hostWrite, windowOffset_busAddress h, supportedAccess, h4]

/-- One round of POLL reads STATUS, and goes on exactly if DONE = 1. -/
theorem pollOnce_cases (rest : List HostInstr) (s : State) :
    (s.done = true ∧ pollOnce rest s = { observe .status s with program := rest }) ∨
    (s.done = false ∧ pollOnce rest s = observe .status s) := by
  have hb : (readReg s .status).getLsbD 1 = s.done := by
    simp only [readReg, statusWord]
    cases s.busy <;> cases s.done <;> cases s.dvalid <;> cases s.cmderr <;> cases s.result <;>
      cases s.xstate <;> rfl
  unfold pollOnce
  rw [hb]
  cases hd : s.done
  · exact .inr ⟨rfl, rfl⟩
  · exact .inl ⟨rfl, rfl⟩

/-- A turn of the host writes a register, which uses up the write in its program, or changes only the program and what
the host has read. -/
theorem hostTurn_cases {s t : State} (h : hostTurn s = .next t) :
    (∃ p r, t = { s with program := p, hostReads := r }) ∨
    (∃ address width w more off, s.program = .write address width w :: more ∧
      t = regWrite off w { s with program := more }) := by
  unfold hostTurn at h
  split at h
  · injection h with h
    exact .inl ⟨s.program, s.hostReads, h.symm⟩
  · obtain ⟨off, h⟩ := hostRead_next h
    exact .inl ⟨_, _, h⟩
  · obtain ⟨off, h⟩ := hostWrite_next h
    exact .inr ⟨_, _, _, _, off, ‹_›, h⟩
  · injection h with h
    rcases pollOnce_cases _ s with ⟨_, e⟩ | ⟨_, e⟩ <;> rw [e] at h <;>
      exact .inl ⟨_, _, h.symm⟩
  · injection h with h
    exact .inl ⟨_, s.hostReads, h.symm⟩

/-- If a step answers a next state, it is the controller's step, time passing, a turn of the host that writes no
register, a host write, or reset. -/
theorem step_cases {s t : State} (h : step s = .next t) :
    (controllerEnabled (stepStart s) = true ∧
      exec (currentInstr (stepStart s)) (stepStart s) = .next t) ∨
    (∃ ms, t = timePasses ms (stepStart s)) ∨
    (∃ p r, t = { stepStart s with program := p, hostReads := r }) ∨
    (∃ address width w more off, s.program = .write address width w :: more ∧
      t = regWrite off w { stepStart s with program := more }) ∨
    (s.schedule.head? = some .reset ∧ t = resetMachine (stepStart s)) := by
  unfold step runStep at h
  split at h
  · unfold unscheduledMove at h
    split at h
    · exact .inl ⟨‹_›, h⟩
    · split at h
      · injection h with h; exact .inr (.inl ⟨_, h.symm⟩)
      · exact .inr (.inr ((hostTurn_cases h).imp_right .inl))
  · rename_i m rest hs
    cases m with
    | controller =>
      rcases controllerStep_cases h with h | h
      · exact .inl h
      · exact .inr (.inr (.inl ⟨_, _, h⟩))
    | tick ms => injection h with h; exact .inr (.inl ⟨ms, h.symm⟩)
    | host => exact .inr (.inr ((hostTurn_cases h).imp_right .inl))
    | reset =>
      injection h with h
      exact .inr (.inr (.inr (.inr ⟨by rw [hs]; rfl, h.symm⟩)))

/-- The state right after an accepted word, at the controller's step. -/
theorem step_placeCommand (s : State) (w : Word) :
    step (placeCommand s w) =
      exec (decodeCommand w) { accept w s with draws := s.draws + 1 } := rfl

end Sys2Proof.Machine
end

