-- ==== Sys2Proof/Laws/Run.lean ====
section
/-! SUPPORT. Runs of several steps, the moves of a schedule, and everything a command can do, said once. -/

namespace Sys2Proof.Machine

theorem coreRun_next {M : Host.Core} {n : Nat} {s t : M.State} (h : M.step s = .next t) :
    Host.Core.run M (n + 1) s = Host.Core.run M n t := by
  rw [Host.Core.run.eq_2, h]

theorem run_next {n : Nat} {s t : State} (h : step s = .next t) :
    Host.Core.run core (n + 1) s = Host.Core.run core n t := coreRun_next h

theorem coreRun_add {M : Host.Core} {a : Nat} (b : Nat) {s t : M.State}
    (h : Host.Core.run M a s = .next t) :
    Host.Core.run M (a + b) s = Host.Core.run M b t := by
  induction a generalizing s with
  | zero =>
    rw [Host.Core.run.eq_1] at h
    injection h with h
    rw [h, Nat.zero_add]
  | succ a ih =>
    rw [Host.Core.run.eq_2] at h
    rw [Nat.succ_add, Nat.succ_eq_add_one, Host.Core.run.eq_2]
    cases hs : M.step s with
    | next u => rw [hs] at h; exact ih h
    | fault f => rw [hs] at h; cases h
    | refused r => rw [hs] at h; cases h

/-- A run in two parts. -/
theorem run_add {a : Nat} (b : Nat) {s t : State} (h : Host.Core.run core a s = .next t) :
    Host.Core.run core (a + b) s = Host.Core.run core b t := coreRun_add (M := core) b h

theorem step_cons {s : State} {m : Move} {rest : List Move} (h : s.schedule = m :: rest) :
    step s = performMove m (stepStart s) := by
  simp [step, runStep, h]

/-- With no move scheduled, an enabled controller takes its step, -/
theorem step_enabled {s : State} (h : s.schedule = []) (he : controllerEnabled s = true) :
    step s = exec (currentInstr s) (stepStart s) := by
  have he' : controllerEnabled (stepStart s) = true := he
  simp only [step, runStep, h, unscheduledMove, he', if_true]
  rfl

/-- and else, with a command in progress, time passes. -/
theorem step_disabled {s : State} (h : s.schedule = []) (he : controllerEnabled s = false)
    (hb : s.busy = true) : step s = .next (timePasses Config.turnMs (stepStart s)) := by
  have he' : controllerEnabled (stepStart s) = false := he
  simp [step, runStep, h, unscheduledMove, he', hb]

/-- At the host's turn the step is the host's. -/
theorem step_hostTurn {h : HostInstr} {more : List HostInstr} {rest : List Move} {s : State}
    (ht : HostTurn h more rest s) :
    step s = hostTurn (stepStart s) ∧ (stepStart s).program = h :: more ∧
      { stepStart s with program := more } = afterTurn more rest s := by
  obtain ⟨hp, hs | ⟨hs, rfl, hb⟩⟩ := ht
  · exact ⟨step_cons hs, hp, by simp [stepStart, afterTurn, hs]⟩
  · refine ⟨?_, hp, by simp [stepStart, afterTurn, hs]⟩
    have he : controllerEnabled (stepStart s) = false := by simp [controllerEnabled, hb]
    simp [step, runStep, hs, unscheduledMove, he, hb]

/-- The host's turn at a supported write. -/
theorem step_hostWrite {off : Nat} {w : Word} {more : List HostInstr} {rest : List Move} {s : State}
    (ht : HostTurn (.write (busAddress off) 32 w) more rest s) (h : off < 0x200) (h4 : off % 4 = 0) :
    step s = .next (regWrite off w (afterTurn more rest s)) := by
  obtain ⟨h1, h2, h3⟩ := step_hostTurn ht
  rw [h1, hostTurn, h2]
  simp only
  rw [hostWrite_supported (by exact h) h4, h3]

/-- The host's turn at a supported read. -/
theorem step_hostRead {off : Nat} {more : List HostInstr} {rest : List Move} {s : State}
    (ht : HostTurn (.read (busAddress off) 32) more rest s) (h : off < 0x200) (h4 : off % 4 = 0) :
    step s = .next (observe (regAt off) (afterTurn more rest s)) := by
  obtain ⟨h1, h2, h3⟩ := step_hostTurn ht
  rw [h1, hostTurn, h2]
  simp only
  rw [hostRead_supported (by exact h) h4, h3]

/-- The host's turn at POLL: STATUS is read, and the host goes on exactly if DONE = 1. -/
theorem step_poll {more : List HostInstr} {rest : List Move} {s : State}
    (ht : HostTurn .poll more rest s) :
    step s = .next
      (observe .status (afterTurn (if s.done = true then more else .poll :: more) rest s)) := by
  obtain ⟨h1, h2, h3⟩ := step_hostTurn ht
  have he : stepStart s = afterTurn (.poll :: more) rest s := by
    rw [← h2] at *
    obtain ⟨hp, hs | ⟨hs, rfl, _⟩⟩ := ht <;> simp [stepStart, afterTurn, hs]
  rw [h1, hostTurn, h2]
  rcases pollOnce_cases more (stepStart s) with ⟨hd, e⟩ | ⟨hd, e⟩
  · simp only [e]
    rw [if_pos (show s.done = true from hd), he]
    rfl
  · simp only [e]
    rw [if_neg (by simp [show s.done = false from hd]), he]

/-- A decoder's command is its validation and the values of its shape. -/
theorem exec_of_shape {i : Instr} {n : Nat} (h : shapeSize i = some n) :
    4 ≤ n ∧ n ≤ 19 ∧ ∃ v : State → Values, ∀ s, exec i s = .next (decodeRx n (v s) s) := by
  cases i <;> simp [shapeSize] at h <;> subst h <;> refine ⟨by decide, by decide, ?_⟩
  · exact ⟨fun s => ⟨(rxByte s 1).zeroExtend 32, 0, 0, 0⟩, fun _ => rfl⟩
  · exact ⟨fun s => ⟨rxField3 s 1, 0, 0, 0⟩, fun _ => rfl⟩
  · exact ⟨fun s => ⟨rxField3 s 1, rxField3 s 4, rxField3 s 7, 0⟩, fun _ => rfl⟩
  · exact ⟨fun s => ⟨rxField3 s 1, rxField3 s 4, rxField3 s 7, rxField3 s 10⟩, fun _ => rfl⟩
  · exact ⟨fun s => ⟨rxField4 s 1, rxField4 s 5, rxField4 s 9, rxField4 s 13⟩, fun _ => rfl⟩

/-- Everything the performance of a command word can do. -/
theorem exec_command_cases {i : Instr} {s t : State} (hp : portOf i = .command)
    (h : exec i s = .next t) :
    (i = .crcInit ∧ t = complete .ok { s with crc := Config.crcInit }) ∨
    (∃ b, i = .crcByte b ∧ t = complete .ok { s with crc := crcStep s.crc b }) ∨
    (isSerializer i = true ∧ ∃ body, RequestBody body ∧ t = emit body s) ∨
    (∃ n v, shapeSize i = some n ∧ t = decodeRx n v s) ∨
    (∃ w, i = .illegal w ∧ t = complete .illegalOp s) ∨
    (i = .xchg ∧ execXchg s = .next t) := by
  by_cases hs : ∃ n, shapeSize i = some n
  · obtain ⟨n, hn⟩ := hs
    obtain ⟨_, _, v, hv⟩ := exec_of_shape hn
    rw [hv] at h
    injection h with h
    exact .inr (.inr (.inr (.inl ⟨n, v s, hn, h.symm⟩)))
  · cases i <;> simp [portOf] at hp <;> try exact absurd ⟨_, rfl⟩ hs
    case xchg => exact .inr (.inr (.inr (.inr (.inr ⟨rfl, h⟩))))
    case illegal w => cases h; exact .inr (.inr (.inr (.inr (.inl ⟨w, rfl, rfl⟩))))
    case crcInit => cases h; exact .inl ⟨rfl, rfl⟩
    case crcByte b => cases h; exact .inr (.inl ⟨b, rfl, rfl⟩)
    case encProbe => cases h; exact .inr (.inr (.inl ⟨rfl, _, .probe _, rfl⟩))
    case encOpen => cases h; exact .inr (.inr (.inl ⟨rfl, _, .openSession .., rfl⟩))
    case encClose => cases h; exact .inr (.inr (.inl ⟨rfl, _, .closeSession _, rfl⟩))
    case encAux => cases h; exact .inr (.inr (.inl ⟨rfl, _, .auxiliary _ _, rfl⟩))
    case encEnergy => cases h; exact .inr (.inr (.inl ⟨rfl, _, .energy _ _ _, rfl⟩))

/-- Time passing changes TIMER only. -/
theorem timePasses_eq (ms : Nat) (s : State) : ∃ k, timePasses ms s = { s with timer := k } := by
  unfold timePasses
  split
  · exact ⟨_, rfl⟩
  · exact ⟨_, rfl⟩
  · exact ⟨s.timer, rfl⟩

end Sys2Proof.Machine
end

