-- ==== Sys2Proof/Tests/Slice0.lean ====
section
/-! SUPPORT. Tests on small states: ill-formed terms, words written out from spec/30_encoding.md, vectors of
spec/95_test_vectors.md; and for every statement with hypotheses a witness that meets them together. -/

namespace Sys2Proof.Tests

set_option Elab.async false

open Sys2Proof Sys2Proof.Machine

/-! What is well formed (R82). -/

theorem test_legal_word_is_no_illegal_command : wellFormed (.illegal 0x00000001) = false := by decide +kernel
theorem test_crc_byte_word_is_no_illegal_command : wellFormed (.illegal 0x0000AB02) = false := by decide +kernel
theorem test_arg_makes_a_word_illegal : wellFormed (.illegal 0x00000101) = true := by decide +kernel

/-! Command words, bit by bit: RSV, ARG, OP (R81, R83). -/

theorem test_decode_crc_init :
    decodeCommand 0b0000000000000000_00000000_00000001 = .crcInit := by decide +kernel
theorem test_decode_crc_byte :
    decodeCommand 0b0000000000000000_10100101_00000010 = .crcByte 0xA5 := by decide +kernel
theorem test_decode_enc_probe :
    decodeCommand 0b0000000000000000_00000000_00010000 = .encProbe := by decide +kernel
theorem test_decode_enc_open :
    decodeCommand 0b0000000000000000_00000000_00010001 = .encOpen := by decide +kernel
theorem test_decode_enc_close :
    decodeCommand 0b0000000000000000_00000000_00010010 = .encClose := by decide +kernel
theorem test_decode_enc_aux :
    decodeCommand 0b0000000000000000_00000000_00010011 = .encAux := by decide +kernel
theorem test_decode_enc_energy :
    decodeCommand 0b0000000000000000_00000000_00010100 = .encEnergy := by decide +kernel
theorem test_decode_dec_status :
    decodeCommand 0b0000000000000000_00000000_00100000 = .decStatus := by decide +kernel
theorem test_decode_dec_scalar3 :
    decodeCommand 0b0000000000000000_00000000_00100001 = .decScalar3 := by decide +kernel
theorem test_decode_dec_phase3 :
    decodeCommand 0b0000000000000000_00000000_00100010 = .decPhase3 := by decide +kernel
theorem test_decode_dec_sumphase3 :
    decodeCommand 0b0000000000000000_00000000_00100011 = .decSumphase3 := by decide +kernel
theorem test_decode_dec_energy4 :
    decodeCommand 0b0000000000000000_00000000_00100100 = .decEnergy4 := by decide +kernel
theorem test_decode_xchg :
    decodeCommand 0b0000000000000000_00000000_00110000 = .xchg := by decide +kernel
theorem test_decode_illegal :
    decodeCommand 0b1000000000000000_00000000_00100000 = .illegal 0x80000020 := by decide +kernel

/-! Frames (95_test_vectors.md 2.2, 2.3.1; R87, R91). -/

theorem test_decode_request_probe :
    decode .request [0x01, 0x00, 0x00, 0x20] = .ok (.wireRequestProbe 0x01) := by decide +kernel
theorem test_decode_request_open :
    decode .request [0x00, 0x01, 0x02, 0x02, 0x02, 0x02, 0x02, 0x02, 0x02, 0xB0, 0x07] =
      .ok (.wireRequestOpenSession 0 2 2 2 2 2 2 2) := by decide +kernel
theorem test_decode_request_close :
    decode .request [0x01, 0x02, 0x81, 0xE1] = .ok (.wireRequestCloseSession 0x01) := by decide +kernel
theorem test_decode_request_voltage :
    decode .request [0x01, 0x08, 0x16, 0x11, 0x4E, 0x76] = .ok (.wireRequestReadVoltage 0x01) := by
  decide +kernel
theorem test_decode_request_current :
    decode .request [0x00, 0x08, 0x16, 0x21, 0x4F, 0x9E] = .ok (.wireRequestReadCurrent 0x00) := by
  decide +kernel
theorem test_decode_request_angle :
    decode .request [0x00, 0x08, 0x16, 0x51, 0x4E, 0x7A] = .ok (.wireRequestReadAngle 0x00) := by
  decide +kernel
theorem test_decode_request_cos_phi :
    decode .request [0x00, 0x08, 0x16, 0x30, 0x8F, 0x92] = .ok (.wireRequestReadCosPhi 0x00) := by
  decide +kernel
theorem test_decode_request_frequency :
    decode .request [0x00, 0x08, 0x16, 0x40, 0x8E, 0x76] = .ok (.wireRequestReadFrequency 0x00) := by
  decide +kernel
theorem test_decode_request_active_power :
    decode .request [0x00, 0x08, 0x16, 0x00, 0x8F, 0x86] =
      .ok (.wireRequestReadActivePower 0x00) := by decide +kernel
theorem test_decode_request_reactive_power :
    decode .request [0x00, 0x08, 0x16, 0x08, 0x8E, 0x40] =
      .ok (.wireRequestReadReactivePower 0x00) := by decide +kernel
theorem test_decode_request_energy :
    decode .request [0x00, 0x05, 0x50, 0x02, 0xAD, 0xE4] =
      .ok (.wireRequestReadEnergyCounters 0x00 0x50 0x02) := by decide +kernel
theorem test_decode_response_status :
    decode .response [0x00, 0xF0, 0x01, 0xF4] = .ok (.wireResponseStatus 0x00 0xF0) := by decide +kernel
theorem test_decode_response_scalar3 :
    decode .response [0x00, 0x00, 0x88, 0x13, 0x27, 0xE9] =
      .ok (.wireResponseScalar3 0x00 ⟨0x00, 0x88, 0x13⟩) := by decide +kernel
theorem test_decode_response_phase3 :
    decode .response [0x00, 0x00, 0x7C, 0x59, 0x00, 0x80, 0x59, 0x00, 0x5A, 0x5A, 0x17, 0xAA] =
      .ok (.wireResponsePhase3 0x00 ⟨0x00, 0x7C, 0x59⟩ ⟨0x00, 0x80, 0x59⟩ ⟨0x00, 0x5A, 0x5A⟩) := by
  decide +kernel
theorem test_decode_response_sumphase3 :
    decode .response
        [0x00, 0x40, 0x10, 0x27, 0x00, 0xC4, 0x09, 0x00, 0x88, 0x13, 0x00, 0x4C, 0x1D, 0x62, 0x55] =
      .ok (.wireResponseSumphase3 0x00 ⟨0x40, 0x10, 0x27⟩ ⟨0x00, 0xC4, 0x09⟩ ⟨0x00, 0x88, 0x13⟩
        ⟨0x00, 0x4C, 0x1D⟩) := by decide +kernel
theorem test_decode_response_energy4 :
    decode .response
        [0x00, 0x00, 0x00, 0x10, 0x27, 0x01, 0x00, 0x00, 0x00, 0x00, 0x00, 0x00, 0x00, 0xFF, 0xFF, 0xFF,
          0xFF, 0xE9, 0xD0] =
      .ok (.wireResponseEnergy4 0x00 ⟨0x00, 0x00, 0x10, 0x27⟩ ⟨0x01, 0x00, 0x00, 0x00⟩
        ⟨0x00, 0x00, 0x00, 0x00⟩ ⟨0xFF, 0xFF, 0xFF, 0xFF⟩) := by decide +kernel

/-! What the decoder refuses. -/

theorem test_decode_refuses_a_bad_crc :
    decode .request [0x00, 0x00, 0xB0, 0x01] = .error .wrongCrc := by decide +kernel
theorem test_decode_refuses_an_unlisted_sub_index :
    decode .request (withCrc [0x00, 0x08, 0x16, 0x12]) = .error (.unlistedSubIndex 0x12) := by decide +kernel
theorem test_decode_refuses_an_unknown_wire_command :
    decode .request (withCrc [0x00, 0x03]) = .error (.unknownWireCommand 0x03) := by decide +kernel
theorem test_decode_refuses_a_wrong_length :
    decode .response (withCrc [0x00, 0x01, 0x02]) = .error (.wrongLength 5) := by decide +kernel
theorem test_decode_refuses_another_parameter_number :
    decode .request (withCrc [0x00, 0x08, 0x17, 0x11]) = .error (.unknownParameterNumber 0x17) := by
  decide +kernel

/-! The host's placing of a table word. -/

theorem test_table_word_of_a_frame_of_six_bytes :
    decodeTableWord 48 0x8A4F11160800 = some (.wireRequestReadVoltage 0x00) := by decide +kernel
theorem test_table_word_of_a_command : decodeTableWord 32 0x0000FF02 = some (.crcByte 0xFF) := by
  decide +kernel

/-! Small states. -/

/-- What is seen of a next state. -/
def after {α : Type} (a : Answer) (f : State → α) : Option α :=
  match a with
  | .next s => some (f s)
  | _ => none

/-- Reset, with a response loaded in RX. -/
def loaded (f : List Byte) : State :=
  { State.reset with rx := memWriteBytes [] 0 f, rxlen := BitVec.ofNat 8 f.length, crc := 0x1234 }

/-- Reset, with a request built in TX, in an exchange at `x`. -/
def exchangeAt (x : XState) (f : List Byte) : State :=
  { State.reset with
    tx := memWriteBytes [] 0 f, txlen := BitVec.ofNat 8 f.length, busy := true, pending := 0x00000030
    xstate := x }

/-- VAL0 to VAL3. -/
def values (s : State) : List Word := [s.val0, s.val1, s.val2, s.val3]

/-- Reset, with moves to come. -/
def scheduled (ms : List Move) : State := { State.reset with schedule := ms }

theorem test_step_runs_a_placed_command :
    after (step (State.reset.withFetchWord 32 0x00000001)) State.crc = some 0xFFFF := by decide +kernel
theorem test_step_sends_a_placed_request :
    after (step { State.reset.withFetchWord 48 0x8A4F11160800 with chanWrites := [.ok] }) State.sent =
      some [[0x00, 0x08, 0x16, 0x11, 0x4F, 0x8A]] := by decide +kernel

/-! The CRC unit (95_test_vectors.md 2.1). -/

theorem test_crc_step_table :
    crcStep 0xFFFF 0x00 = 0x40BF ∧ crcStep 0xFFFF 0x01 = 0x807E ∧ crcStep 0x0000 0x00 = 0x0000 ∧
      crcStep 0x8000 0x00 = 0x0080 ∧ crcStep 0x1234 0x56 = 0xE993 := by decide +kernel
theorem test_crc16_of_123456789 :
    crc16 [0x31, 0x32, 0x33, 0x34, 0x35, 0x36, 0x37, 0x38, 0x39] = 0x4B37 := by decide +kernel
theorem test_crc_init : after (exec .crcInit (loaded [])) State.crc = some 0xFFFF := by decide +kernel
theorem test_crc_byte :
    after (exec (.crcByte 0x00) { State.reset with crc := 0x40BF }) State.crc = some 0xB001 := by decide +kernel
theorem test_illegal_changes_status_only :
    after (exec (.illegal 0x00000101) (loaded [])) (fun s => (s.crc, statusWord s)) =
      some (0x1234, 0x00000052) := by decide +kernel

/-! The serializer (95_test_vectors.md 2.2). -/

theorem test_enc_probe :
    after (exec .encProbe { State.reset with devaddr := 0x89 }) (fun s => (txFrame s, s.crc)) =
      some ([0x89, 0x00, 0x66, 0x20], 0x2066) := by decide +kernel
theorem test_enc_open :
    after (exec .encOpen
        { State.reset with access := 0x02, pwd0 := 0x02020202, pwd1 := 0x0202 }) txFrame =
      some [0x00, 0x01, 0x02, 0x02, 0x02, 0x02, 0x02, 0x02, 0x02, 0xB0, 0x07] := by decide +kernel
theorem test_enc_open_takes_the_password_in_order :
    after (exec .encOpen { State.reset with pwd0 := 0x44332211, pwd1 := 0x6655 })
        (fun s => (txFrame s).take 9) =
      some [0x00, 0x01, 0x01, 0x11, 0x22, 0x33, 0x44, 0x55, 0x66] := by decide +kernel
theorem test_enc_close :
    after (exec .encClose State.reset) txFrame = some [0x00, 0x02, 0x80, 0x71] := by decide +kernel
theorem test_enc_close_leaves_the_tail :
    after (exec .encClose
        { State.reset with tx := memWriteBytes [] 0 [0x00, 0x08, 0x16, 0x11, 0x4F, 0x8A] })
        (fun s => (txByte s 4, txByte s 5, s.txlen)) = some (0x4F, 0x8A, 4) := by decide +kernel
theorem test_enc_aux :
    after (exec .encAux { State.reset with subidx := 0x11 }) txFrame =
      some [0x00, 0x08, 0x16, 0x11, 0x4F, 0x8A] := by decide +kernel
theorem test_enc_energy :
    after (exec .encEnergy { State.reset with eparam := 0x0035 }) txFrame =
      some [0x00, 0x05, 0x35, 0x00, 0x07, 0x75] := by decide +kernel

/-! The deserializer (95_test_vectors.md 1.6, 2.3). -/

theorem test_dec_status :
    after (exec .decStatus (loaded [0x00, 0xF0, 0x01, 0xF4])) (fun s => (values s, statusWord s)) =
      some ([0xF0, 0, 0, 0], 0x00000006) := by decide +kernel
theorem test_dec_status_wrong_crc :
    after (exec .decStatus (loaded [0x00, 0x01, 0x01, 0xB0])) (fun s => (s.crc, statusWord s)) =
      some (0x70C0, 0x00000042) := by decide +kernel
theorem test_dec_scalar3 :
    after (exec .decScalar3 (loaded [0x00, 0x00, 0x88, 0x13, 0x27, 0xE9])) values =
      some [5000, 0, 0, 0] := by decide +kernel
theorem test_dec_phase3 :
    after (exec .decPhase3
        (loaded [0x00, 0x00, 0x7C, 0x59, 0x00, 0x80, 0x59, 0x00, 0x5A, 0x5A, 0x17, 0xAA])) values =
      some [22908, 22912, 23130, 0] := by decide +kernel
theorem test_dec_phase3_wrong_size :
    after (exec .decPhase3 (loaded [0x00, 0xF0, 0x01, 0xF4])) (fun s => (s.crc, statusWord s)) =
      some (0x1234, 0x00000032) := by decide +kernel
theorem test_dec_sumphase3 :
    after (exec .decSumphase3
        (loaded [0x00, 0x40, 0x10, 0x27, 0x00, 0xC4, 0x09, 0x00, 0x88, 0x13, 0x00, 0x4C, 0x1D, 0x62,
          0x55])) values = some [10000, 2500, 5000, 7500] := by decide +kernel
theorem test_dec_energy4 :
    after (exec .decEnergy4
        (loaded [0x00, 0x00, 0x00, 0x10, 0x27, 0x01, 0x00, 0x00, 0x00, 0x00, 0x00, 0x00, 0x00, 0xFF,
          0xFF, 0xFF, 0xFF, 0xE9, 0xD0])) values =
      some [10000, 65536, 0, 1073741823] := by decide +kernel
theorem test_packed_fields :
    d3 0x3F 0x10 0x00 = 4128784 ∧ d3 0x12 0x34 0x56 = 0x125634 ∧ d4 0x12 0x34 0x56 0x78 = 0x34127856 ∧
      e3 22908 = ⟨0x00, 0x7C, 0x59⟩ ∧ e4 123456789 = ⟨0x5B, 0x07, 0x15, 0xCD⟩ := by decide +kernel
theorem test_physical_value : physicalValue .voltage 4128784 = 4128784 / 100 := by
  simp [physicalValue, readingScale]

/-! The exchange and the wire (95_test_vectors.md 2.4). -/

theorem test_xchg_without_a_frame :
    after (exec .xchg { State.reset with busy := true, xstate := .exec }) statusWord =
      some 0x00000062 := by decide +kernel
theorem test_xchg_in_turn_starts_to_wait :
    after (exec .xchg (exchangeAt .turn [0x00, 0x00, 0x01, 0xB0])) statusWord = some 0x00000401 := by
  decide +kernel
theorem test_request_on_the_line :
    after (exec (.wireRequestProbe 0xFF) { State.reset with chanWrites := [.ok] }) State.sent =
      some [[0xFF, 0x00, 0x40, 0x40]] := by decide +kernel
theorem test_request_that_the_channel_refuses :
    after (exec (.wireRequestCloseSession 0x00)
        { loaded [0x00, 0xF0, 0x01, 0xF4] with chanWrites := [.err] })
        (fun s => (s.sent, s.rxlen, statusWord s)) = some ([], 0, 0x00000022) := by decide +kernel
theorem test_response_received :
    after (exec (.wireResponseScalar3 0x00 ⟨0x00, 0x88, 0x13⟩) (loaded [0xFF, 0xFF]))
        (fun s => (rxBytes s 6, s.rxlen, statusWord s)) =
      some ([0x00, 0x00, 0x88, 0x13, 0x27, 0xE9], 6, 0x00000002) := by decide +kernel

/-! The host (95_test_vectors.md 2.5, 2.6; R60, R61, R90, R96). -/

/-- Reset, with a program for the host. -/
def hosting (p : List HostInstr) : State := { State.reset with program := p }

/-- An exchange in WAIT, the host to move. -/
def waiting (p : List HostInstr) : State :=
  { exchangeAt .wait [0x00, 0x00, 0x01, 0xB0] with schedule := [.host], program := p }

theorem hosting_turn (h : HostInstr) (more : List HostInstr) :
    HostTurn h more [] (hosting (h :: more)) := ⟨rfl, .inr ⟨rfl, rfl, rfl⟩⟩

theorem waiting_turn (h : HostInstr) (more : List HostInstr) :
    HostTurn h more [] (waiting (h :: more)) := ⟨rfl, .inl rfl⟩

theorem after_write {α : Type} {off : Nat} {w : Word} {more : List HostInstr} {rest : List Move}
    {s : State} {f : State → α} {x : α} (ht : HostTurn (.write (busAddress off) 32 w) more rest s)
    (h : off < 0x200) (h4 : off % 4 = 0) (e : f (regWrite off w (afterTurn more rest s)) = x) :
    after (step s) f = some x := by
  rw [step_hostWrite ht h h4, after, e]

theorem test_busy_drop :
    after (step (waiting [wr .cmd 0x00000010])) (fun s => (statusWord s, s.pending)) =
      some (0x00000409, 0x00000030) :=
  after_write (off := 0x000) (waiting_turn _ _) (by decide) (by decide) (by decide +kernel)
theorem test_parameter_write_while_busy :
    after (step (waiting [wr .devaddr 0x00000005])) State.devaddr = some 0x00 :=
  after_write (off := 0x008) (waiting_turn _ _) (by decide) (by decide) (by decide +kernel)
theorem test_devaddr_write_keeps_the_low_byte :
    after (step (hosting [wr .devaddr 0x12345689])) State.devaddr = some 0x89 :=
  after_write (off := 0x008) (hosting_turn _ _) (by decide) (by decide) (by decide +kernel)
theorem test_eparam_write_keeps_the_low_half :
    after (step (hosting [wr .eparam 0xFFFFFFFF])) State.eparam = some 0xFFFF :=
  after_write (off := 0x010) (hosting_turn _ _) (by decide) (by decide) (by decide +kernel)
theorem test_crc_write_is_ignored :
    after (step (hosting [wr .crc 0x1234])) State.crc = some 0xFFFF :=
  after_write (off := 0x020) (hosting_turn _ _) (by decide) (by decide) (by decide +kernel)
theorem test_caps : capsOf 32 = 0x00000B20 ∧ capsOf 20 = 0x00000B14 := by decide +kernel
theorem test_txdata_lanes :
    after (exec .encOpen State.reset) (fun s => [readReg s (regAt 0x080), readReg s (regAt 0x084),
        readReg s (regAt 0x088)]) = some [0x01010100, 0x01010101, 0x00817701] := by decide +kernel
theorem test_every_register_has_its_offset :
    ∀ r ∈ [Reg.cmd, .status, .devaddr, .subidx, .eparam, .access, .pwd0, .pwd1, .crc, .txlen, .rxlen,
      .caps, .val0, .val1, .val2, .val3, .txdata 0, .txdata 2, .rxdata 0, .rxdata 63, .reserved],
      regAt (regOffset r) = r := by decide
theorem test_bus_address : windowOffset (Config.mfeBase + 0x1FC) = some 0x1FC :=
  windowOffset_busAddress (by decide)
theorem test_narrow_access_is_refused (s : State) :
    hostRead (busAddress 0x004) 16 s = .refused (.unsupportedAccess 0x004 16) := by
  rw [hostRead, windowOffset_busAddress (by decide)]
  rfl
theorem test_misaligned_access_is_refused (s : State) :
    hostWrite (busAddress 0x002) 32 0 s = .refused (.unsupportedAccess 0x002 32) := by
  rw [hostWrite, windowOffset_busAddress (by decide)]
  rfl
theorem test_access_outside_the_window (s : State) :
    hostRead (busAddress 0x200) 32 s = .fault (.outsideWindow (busAddress 0x200)) := by
  rw [hostRead, windowOffset_outside (.inr (Nat.le_refl _))]
theorem test_poll_waits_for_done :
    after (step (waiting [.poll])) (fun s => (s.program, s.hostReads)) =
      some ([.poll], [0x00000401]) := by
  rw [step_poll (waiting_turn _ _)]
  decide +kernel
theorem test_poll_ends_at_done :
    after (step { hosting [.poll] with done := true }) (fun s => (s.program, s.hostReads)) =
      some ([], [0x00000002]) := by
  rw [step_poll (more := []) (rest := []) ⟨rfl, .inr ⟨rfl, rfl, rfl⟩⟩]
  decide +kernel
theorem test_transact_decodes_after_ok :
    after (hostTurn { hosting (.unlessOkSkip 2 :: doCommand .decStatus) with
        hostReads := [0x00000002] }) State.program = some (doCommand .decStatus) := rfl
theorem test_transact_leaves_the_decoder_out_after_an_error :
    after (hostTurn { hosting (.unlessOkSkip 2 :: doCommand .decStatus) with
        hostReads := [0x00000002, 0x00000012] }) State.program = some [] := rfl
theorem test_transact_expands :
    transact .encProbe .decStatus =
      [wr .cmd 0x00000010, .poll, wr .cmd 0x00000030, .poll, rd .status, .unlessOkSkip 2,
        wr .cmd 0x00000020, .poll] := rfl
theorem test_enc_read_voltage :
    encRead .voltage = some [wr .subidx 0x00000011, wr .cmd 0x00000013, .poll] := rfl
theorem test_enc_read_has_no_energy : encRead .energy = none := rfl
theorem test_crc_seq_expands :
    crcSeq [0x01] = [wr .cmd 0x00000001, .poll, wr .cmd 0x00000102, .poll] := rfl
theorem test_loadrx_writes (k : Nat) :
    loadRxWords k [0x00, 0x01, 0x7C, 0x59, 0xAA] =
      [wr (.rxdata k) 0x597C0100, wr (.rxdata (k + 1)) 0x000000AA] := rfl
theorem test_enc_energy_parameter :
    encEnergyOf 4 0 1 = wr .eparam 0x00000140 :: doCommand .encEnergy := rfl
theorem test_run_ends_although_moves_are_left :
    (scheduled [.controller, .tick 5]).runEnded = true ∧ (hosting [.poll]).runEnded = false ∧
      (waiting []).runEnded = false ∧ (scheduled [.reset]).runEnded = false := by decide +kernel

/-! Witnesses: states and operands that meet the hypotheses of a statement together. -/

theorem after_eq {α : Type} {a : Answer} {f : State → α} {x : α} (h : after a f = some x) :
    ∃ t, a = .next t ∧ f t = x := by
  cases a with
  | next t => exact ⟨t, rfl, Option.some.inj h⟩
  | fault r => cases h
  | refused r => cases h

/-- `w` is another word than `w₀` with its opcode. -/
abbrev OtherWord (w₀ w : Word) : Prop := w.extractLsb' 0 8 = w₀.extractLsb' 0 8 ∧ w ≠ w₀

theorem loaded_holds {f : List Byte} (h : f.length ≤ 255) : RxHolds f (loaded f) := by
  refine ⟨?_, fun i hi => ?_⟩
  · simp only [loaded, BitVec.toNat_ofNat]
    omega
  · simp only [loaded]
    rw [memRead_memWriteBytes, if_pos (by omega)]
    simp

theorem witness_DecodeAfterEncode :
    wellFormed (.illegal 0x00000000) = true ∧ wellFormed (.crcByte 0xFF) = true ∧
      wellFormed (.wireResponseStatus 0xFF 0xFF) = true := by decide +kernel
theorem witness_EncodeAfterDecode :
    decode .command [0x02, 0xFF, 0x00, 0x00] = .ok (.crcByte 0xFF) ∧
      decode .request [0x00, 0x02, 0x80, 0x71] = .ok (.wireRequestCloseSession 0x00) ∧
      decode .response [0x00, 0x05, 0xC1, 0xB3] = .ok (.wireResponseStatus 0x00 0x05) := by decide +kernel
theorem witness_LegalityOfCommandWords :
    decodeCommand 0x00000101 = .illegal 0x00000101 ∧
      ∃ s : State, s.busy = false ∧
        s.program = .write (busAddress 0x000) 32 0x00000101 :: [.poll] ∧
        s.schedule = .host :: .controller :: [] :=
  ⟨by decide +kernel,
    { hosting [wr .cmd 0x00000101, .poll] with schedule := [.host, .controller] }, rfl, rfl, rfl⟩
theorem witness_CrcByteFeedsOneByte :
    (0x00010002 : Word).extractLsb' 0 8 = 0x02 ∧ (0x00010002 : Word).extractLsb' 16 16 ≠ 0 := by
  decide +kernel
theorem witness_CrcSeqComputesTheCrc (bs : List Byte) :
    ∃ s : State, s.busy = false ∧ s.schedule = [] ∧ s.program = crcSeq bs ++ [rd .crc] :=
  ⟨hosting (crcSeq bs ++ [rd .crc]), rfl, rfl, rfl⟩
theorem witness_CrcInitLoadsTheInitialValue : OtherWord 0x00000001 0x00000101 := by decide +kernel
theorem witness_EncProbeBuildsTheProbe : OtherWord 0x00000010 0x00000110 := by decide +kernel
theorem witness_EncOpenBuildsTheOpenSession : OtherWord 0x00000011 0x00000111 := by decide +kernel
theorem witness_EncCloseBuildsTheCloseSession : OtherWord 0x00000012 0x00000112 := by decide +kernel
theorem witness_EncAuxBuildsTheReadAuxiliary : OtherWord 0x00000013 0x00000113 := by decide +kernel
theorem witness_EncEnergyBuildsTheReadEnergy : OtherWord 0x00000014 0x00000114 := by decide +kernel
theorem witness_SerializerBuildsTheTableRows (sub : Byte) :
    ∃ t, exec .encAux { State.reset with subidx := sub } = .next t := ⟨_, rfl⟩
theorem witness_DecStatusReturnsTheStatusByte :
    OtherWord 0x00000020 0x80000020 ∧
      (loaded (List.replicate 3 0x00)).rxlen.toNat ≠ 4 ∧ (loaded (List.replicate 5 0x00)).rxlen.toNat ≠ 4 ∧
      (∃ s : State, s.rxlen.toNat = 4 ∧ ¬ StoredCrc (crc16 (rxBytes s 2)) 4 s) ∧
      (∃ s : State, s.rxlen.toNat = 4 ∧ StoredCrc (crc16 (rxBytes s 2)) 4 s) := by
  unfold StoredCrc
  refine ⟨by decide +kernel, by decide +kernel, by decide +kernel,
    ⟨loaded
          [0x00, 0x00, 0xB0, 0x01],
      by decide +kernel⟩,
    ⟨loaded
          [0x00, 0x00, 0x01, 0xB0],
      by decide +kernel⟩⟩
theorem witness_DecScalar3ReturnsOneField :
    OtherWord 0x00000021 0x80000021 ∧
      (loaded (List.replicate 5 0x00)).rxlen.toNat ≠ 6 ∧ (loaded (List.replicate 7 0x00)).rxlen.toNat ≠ 6 ∧
      (∃ s : State, s.rxlen.toNat = 6 ∧ ¬ StoredCrc (crc16 (rxBytes s 4)) 6 s) ∧
      (∃ s : State, s.rxlen.toNat = 6 ∧ StoredCrc (crc16 (rxBytes s 4)) 6 s) := by
  unfold StoredCrc
  refine ⟨by decide +kernel, by decide +kernel, by decide +kernel,
    ⟨loaded
          [0x00, 0x00, 0x88, 0x13, 0x27, 0xE8],
      by decide +kernel⟩,
    ⟨loaded
          [0x00, 0x00, 0x88, 0x13, 0x27, 0xE9],
      by decide +kernel⟩⟩
theorem witness_DecPhase3ReturnsThreeFields :
    OtherWord 0x00000022 0x80000022 ∧
      (loaded (List.replicate 11 0x00)).rxlen.toNat ≠ 12 ∧ (loaded (List.replicate 13 0x00)).rxlen.toNat ≠ 12 ∧
      (∃ s : State, s.rxlen.toNat = 12 ∧ ¬ StoredCrc (crc16 (rxBytes s 10)) 12 s) ∧
      (∃ s : State, s.rxlen.toNat = 12 ∧ StoredCrc (crc16 (rxBytes s 10)) 12 s) := by
  unfold StoredCrc
  refine ⟨by decide +kernel, by decide +kernel, by decide +kernel,
    ⟨loaded
          [0x00, 0x00, 0x7C, 0x59, 0x00, 0x80, 0x59, 0x00, 0x5A, 0x5A, 0x17, 0x2A],
      by decide +kernel⟩,
    ⟨loaded
          [0x00, 0x00, 0x7C, 0x59, 0x00, 0x80, 0x59, 0x00, 0x5A, 0x5A, 0x17, 0xAA],
      by decide +kernel⟩⟩
theorem witness_DecSumphase3ReturnsFourFields :
    OtherWord 0x00000023 0x80000023 ∧
      (loaded (List.replicate 14 0x00)).rxlen.toNat ≠ 15 ∧ (loaded (List.replicate 16 0x00)).rxlen.toNat ≠ 15 ∧
      (∃ s : State, s.rxlen.toNat = 15 ∧ ¬ StoredCrc (crc16 (rxBytes s 13)) 15 s) ∧
      (∃ s : State, s.rxlen.toNat = 15 ∧ StoredCrc (crc16 (rxBytes s 13)) 15 s) := by
  unfold StoredCrc
  refine ⟨by decide +kernel, by decide +kernel, by decide +kernel,
    ⟨loaded
          [0x00, 0x40, 0x10, 0x27, 0x00, 0xC4, 0x09, 0x00, 0x88, 0x13, 0x00, 0x4C, 0x1D,
          0x55, 0x62],
      by decide +kernel⟩,
    ⟨loaded
          [0x00, 0x40, 0x10, 0x27, 0x00, 0xC4, 0x09, 0x00, 0x88, 0x13, 0x00, 0x4C, 0x1D,
          0x62, 0x55],
      by decide +kernel⟩⟩
theorem witness_DecEnergy4ReturnsFourFields :
    OtherWord 0x00000024 0x80000024 ∧
      (loaded (List.replicate 18 0x00)).rxlen.toNat ≠ 19 ∧ (loaded (List.replicate 20 0x00)).rxlen.toNat ≠ 19 ∧
      (∃ s : State, s.rxlen.toNat = 19 ∧ ¬ StoredCrc (crc16 (rxBytes s 17)) 19 s) ∧
      (∃ s : State, s.rxlen.toNat = 19 ∧ StoredCrc (crc16 (rxBytes s 17)) 19 s) := by
  unfold StoredCrc
  refine ⟨by decide +kernel, by decide +kernel, by decide +kernel,
    ⟨loaded
          [0x01, 0x00, 0x00, 0x10, 0x27, 0x01, 0x00, 0x00, 0x00, 0x00, 0x00, 0x00, 0x00,
          0xFF, 0xFF, 0xFF, 0xFF, 0xE9, 0xD0],
      by decide +kernel⟩,
    ⟨loaded
          [0x00, 0x00, 0x00, 0x10, 0x27, 0x01, 0x00, 0x00, 0x00, 0x00, 0x00, 0x00, 0x00,
          0xFF, 0xFF, 0xFF, 0xFF, 0xE9, 0xD0],
      by decide +kernel⟩⟩
theorem witness_PackedFieldRoundTrip :
    (0x3FFFFF : Word).toNat < 2 ^ 22 ∧ (0x3FFFFFFF : Word).toNat < 2 ^ 30 ∧
      (⟨0x3F, 0xFF, 0xFF⟩ : Group3).b0.extractLsb' 6 2 = 0 ∧
      (⟨0x40, 0x10, 0x27⟩ : Group3).b0.extractLsb' 6 2 ≠ 0 ∧
      (⟨0xFF, 0x3F, 0xFF, 0xFF⟩ : Group4).b1.extractLsb' 6 2 = 0 ∧
      (⟨0x00, 0x80, 0x10, 0x27⟩ : Group4).b1.extractLsb' 6 2 ≠ 0 := by decide +kernel
theorem witness_OneChangedByteIsWrongCrc :
    shapeSize .decStatus = some 4 ∧ [(0x00 : Byte), 0x00].length + 2 = 4 ∧ 3 < 4 ∧
      (withCrc [0x00, 0x00])[3]? ≠ some 0xB1 ∧
      RxHolds ((withCrc [0x00, 0x00]).set 3 0xB1) (loaded ((withCrc [0x00, 0x00]).set 3 0xB1)) :=
  ⟨rfl, rfl, by decide, by decide +kernel, loaded_holds (by decide +kernel)⟩
theorem witness_XchgStartsOnlyWithAFrame :
    OtherWord 0x00000030 0x00000130 ∧ (exchangeAt .exec []).xstate = .exec ∧
      (exchangeAt .exec []).txlen = 0 ∧ (exchangeAt .exec [0x00, 0x02, 0x80, 0x71]).txlen ≠ 0 := by
  decide +kernel
theorem witness_XchgSendsTheFrame (a : WriteAnswer) :
    ∃ s s' : State, s.xstate = .send ∧ s.chanWrites = [a] ∧ s'.xstate = .send ∧ s'.chanWrites = [] ∧
      nextWrite s' = Config.chanWriteDraw s'.draws :=
  ⟨{ exchangeAt .send [0x00, 0x02, 0x80, 0x71] with chanWrites := [a] },
    exchangeAt .send [0x00, 0x02, 0x80, 0x71], rfl, rfl, rfl, rfl, rfl⟩
theorem witness_TurnLastsTheTurnaroundDelay :
    ∃ s s' : State, s.xstate = .turn ∧ s.busy = true ∧ s.pending = 0x00000030 ∧
      s.schedule = [.controller] ∧ s.timer < Config.turnMs ∧
      s'.xstate = .turn ∧ s'.busy = true ∧ s'.pending = 0x00000030 ∧
      s'.schedule = [.controller] ∧ Config.turnMs ≤ s'.timer :=
  ⟨{ exchangeAt .turn [] with schedule := [.controller], timer := Config.turnExtra },
    { exchangeAt .turn [] with schedule := [.controller], timer := Config.turnMs },
    rfl, rfl, rfl, rfl, Nat.lt_succ_self _, rfl, rfl, rfl, rfl, Nat.le_refl _⟩
theorem witness_XchgKeepsWhatTheReadReturns :
    ∀ r ∈ [[0xFF], List.replicate Config.rxCap (0xFF : Byte)],
      1 ≤ r.length ∧ r.length ≤ Config.rxCap ∧
      ∃ s : State, s.xstate = .wait ∧ nextWait s = .readable ∧ nextRead s = .bytes r := by
  intro r hr
  have h : 1 ≤ r.length ∧ r.length ≤ Config.rxCap := by
    have := rxCap_ge
    simp only [List.mem_cons, List.not_mem_nil, or_false] at hr
    rcases hr with rfl | rfl <;> simp <;> omega
  exact ⟨h.1, h.2,
    { exchangeAt .wait [] with chanWaits := [.readable], chanReads := [.bytes r] }, rfl, rfl,
    by simp [nextRead, atMost, List.take_of_length_le h.2]⟩
theorem witness_XchgErrorsClearRxlen :
    (∃ s : State, s.xstate = .wait ∧ nextWait s = .expired) ∧
      (∃ s : State, s.xstate = .wait ∧ nextWait s = .readable ∧ nextRead s = .err) ∧
      (∃ s : State, s.xstate = .wait ∧ nextWait s = .readable ∧ nextRead s = .bytes []) :=
  ⟨⟨{ exchangeAt .wait [] with chanWaits := [.expired] }, rfl, rfl⟩,
    ⟨{ exchangeAt .wait [] with chanWaits := [.readable], chanReads := [.err] }, rfl, rfl, rfl⟩,
    ⟨{ exchangeAt .wait [] with chanWaits := [.readable], chanReads := [.bytes []] }, rfl, rfl,
      by simp [nextRead, atMost]⟩⟩
theorem witness_WaitAlwaysEndsTheExchange (a : WaitAnswer) (r : ReadAnswer) :
    ((exchangeAt .wait []).xstate = .wait ∧ (exchangeAt .wait []).chanWaits = [] ∧
      (exchangeAt .wait []).chanReads = []) ∧
      ∃ s : State, s.chanWaits = a :: [] ∧ s.chanReads = r :: [] :=
  ⟨⟨rfl, rfl, rfl⟩, { exchangeAt .wait [] with chanWaits := [a], chanReads := [r] }, rfl, rfl⟩
theorem witness_XchgLeavesTheRest :
    (∃ t, exec .xchg (exchangeAt .exec []) = .next t) ∧
      (∃ t, exec .xchg (exchangeAt .send []) = .next t) ∧
      (∃ t, exec .xchg (exchangeAt .turn []) = .next t) ∧
      (∃ t, exec .xchg (exchangeAt .wait []) = .next t) :=
  ⟨⟨_, rfl⟩, ⟨_, rfl⟩, ⟨_, rfl⟩, ⟨_, rfl⟩⟩
theorem witness_EveryCommandCompletes (x : XState) :
    (exchangeAt x []).busy = true ∧ (exchangeAt x []).schedule = [] := ⟨rfl, rfl⟩
theorem witness_DoRunsACommandToItsEnd :
    (∀ i ∈ [Instr.xchg, .illegal 0x00000000, .crcByte 0xFF, .decEnergy4], portOf i = .command ∧
      (hosting (doCommand i ++ [])).busy = false ∧ (hosting (doCommand i ++ [])).schedule = []) ∧
      HostTurn .poll [] [] (waiting [.poll]) ∧ (waiting [.poll]).done = false ∧
      HostTurn .poll [] [] (hosting [.poll]) ∧ (hosting [.poll]).done = false ∧
      HostTurn .poll [] [] { hosting [.poll] with done := true } :=
  ⟨by decide +kernel, waiting_turn _ _, rfl, hosting_turn _ _, rfl, rfl, .inr ⟨rfl, rfl, rfl⟩⟩
theorem witness_RequestRowsAreSent (a : WriteAnswer) : ∃ s : State, s.chanWrites = [a] :=
  ⟨{ State.reset with chanWrites := [a] }, rfl⟩
theorem witness_XchgStepIsTheFramesRow :
    ((exchangeAt .send [0x00, 0x02, 0x80, 0x71]).xstate = .send ∧
      decode .request (txFrame (exchangeAt .send [0x00, 0x02, 0x80, 0x71])) =
        .ok (.wireRequestCloseSession 0x00)) ∧
      decode .response [0x00, 0x05, 0xC1, 0xB3] = .ok (.wireResponseStatus 0x00 0x05) ∧
      ∃ s : State, s.xstate = .wait ∧ s.chanWaits = [.readable] ∧
        s.chanReads = [.bytes [0x00, 0x05, 0xC1, 0xB3]] :=
  ⟨by decide +kernel, by decide +kernel,
    { exchangeAt .wait [] with
      chanWaits := [.readable], chanReads := [.bytes [0x00, 0x05, 0xC1, 0xB3]] }, rfl, rfl, rfl⟩
theorem witness_ResponseRowsDecodeToTheirValues :
    (0x3FFFFF : Word).toNat < 2 ^ 22 ∧ (0x3FFFFFFF : Word).toNat < 2 ^ 30 := by decide +kernel
theorem witness_AcceptanceOfCommands (w : Word) :
    (∃ s : State, s.busy = false ∧ HostTurn (.write (busAddress 0x000) 32 w) [] [] s) ∧
      (∃ s : State, s.busy = false ∧ HostTurn (.write (busAddress 0x000) 32 w) [] [.controller] s) ∧
      (∃ s : State, s.busy = true ∧ HostTurn (.write (busAddress 0x000) 32 w) [] [] s) ∧
      (∀ off ∈ [0x004, 0x1FC], off < 0x200 ∧ off % 4 = 0 ∧ off ≠ 0x000 ∧
        ∃ s : State, s.busy = true ∧ HostTurn (.write (busAddress off) 32 w) [] [] s) :=
  ⟨⟨hosting [wr .cmd w], rfl, hosting_turn _ _⟩,
    ⟨{ hosting [wr .cmd w] with schedule := [.host, .controller] }, rfl, rfl, .inl rfl⟩,
    ⟨waiting [wr .cmd w], rfl, waiting_turn _ _⟩, fun off h => by
      have h' : off < 0x200 ∧ off % 4 = 0 ∧ off ≠ 0x000 := by
        revert off
        decide
      exact ⟨h'.1, h'.2.1, h'.2.2, waiting [.write (busAddress off) 32 w], rfl, waiting_turn _ _⟩⟩
theorem witness_ParameterWritesStoreTheirFields :
    (∀ (off : Nat) (w : Word), (hosting [.write (busAddress off) 32 w]).busy = false ∧
      HostTurn (.write (busAddress off) 32 w) [] [] (hosting [.write (busAddress off) 32 w])) ∧
      ((0xFFFFFF14 : Word).extractLsb' 0 8).toNat ≤ Config.rxCap ∧
      (Config.rxCap < 255 → Config.rxCap < ((0x000000FF : Word).extractLsb' 0 8).toNat) :=
  ⟨fun _ _ => ⟨rfl, hosting_turn _ _⟩, rxCap_ge, fun h => h⟩
theorem witness_RxdataWritesStoreTheirLanes :
    (∀ k ∈ [0, 63], k < 64 ∧ ∃ s : State, s.busy = false ∧
      HostTurn (.write (busAddress (0x100 + 4 * k)) 32 0xFFFFFFFF) [] [] s) ∧ 3 < 4 ∧
      4 * 4 + 3 < Config.rxCap ∧
      (4 * 4 + 4 < 4 * 4 ∨ 4 * 4 + 4 ≤ 4 * 4 + 4 ∨ Config.rxCap ≤ 4 * 4 + 4) ∧
      (4 * 63 + 3 < 4 * 63 ∨ 4 * 63 + 4 ≤ 4 * 63 + 3 ∨ Config.rxCap ≤ 4 * 63 + 3) := by
  have h := rxCap_ge
  have h' := rxCap_le
  refine ⟨fun k hk => ⟨?_, hosting [.write (busAddress (0x100 + 4 * k)) 32 0xFFFFFFFF], rfl,
    hosting_turn _ _⟩, by decide, by omega, by omega, by omega⟩
  revert k
  decide
theorem witness_ReadsHaveNoSideEffect :
    ∀ off ∈ [0x000, 0x1FC], off < 0x200 ∧ off % 4 = 0 ∧
      HostTurn (.read (busAddress off) 32) [] [] (hosting [.read (busAddress off) 32]) ∧
      HostTurn (.read (busAddress off) 32) [] [] (waiting [.read (busAddress off) 32]) :=
  fun off h => by
    have h' : off < 0x200 ∧ off % 4 = 0 := by
      revert off
      decide
    exact ⟨h'.1, h'.2, hosting_turn _ _, waiting_turn _ _⟩
theorem witness_ReservedSpaceAndReadOnly :
    (∀ off ∈ [0x040, 0x07C, 0x08C, 0x0FC], off % 4 = 0 ∧
      ((0x040 ≤ off ∧ off ≤ 0x07C) ∨ (0x08C ≤ off ∧ off ≤ 0x0FC))) ∧
      (∀ off ∈ [0x004, 0x020, 0x024, 0x02C, 0x030, 0x03C, 0x080, 0x088], off % 4 = 0 ∧
        (off = 0x004 ∨ off = 0x020 ∨ off = 0x024 ∨ off = 0x02C ∨ (0x030 ≤ off ∧ off ≤ 0x03C) ∨
          (0x080 ≤ off ∧ off ≤ 0x088))) ∧
      (∀ (off : Nat) (w : Word),
        HostTurn (.write (busAddress off) 32 w) [] [] (hosting [.write (busAddress off) 32 w]) ∧
        HostTurn (.write (busAddress off) 32 w) [] [] (waiting [.write (busAddress off) 32 w])) :=
  ⟨by decide, by decide, fun _ _ => ⟨hosting_turn _ _, waiting_turn _ _⟩⟩
theorem witness_BufferWindowLanes : 3 < 4 ∧ 2 < 3 ∧ 63 < 64 := by decide
theorem witness_OnlyUnsupportedAccessesStop :
    (0x1FF < 0x200 ∧ (32 ≠ 32 ∨ 0x1FF % 4 ≠ 0)) ∧ (0x000 < 0x200 ∧ (16 ≠ 32 ∨ 0x000 % 4 ≠ 0)) ∧
      busAddress 0x200 ≤ busAddress 0x200 ∧
      (Config.mfeBase ≠ 0 → Config.mfeBase - 1 < busAddress 0x000) ∧
      (∀ (address width : Nat) (w : Word),
        HostTurn (.read address width) [] [] (hosting [.read address width]) ∧
        HostTurn (.write address width w) [] [] (waiting [.write address width w])) ∧
      ((hosting [rd .status]).program.head? = some (.read (busAddress 0x004) 32) ∧
        0x004 < 0x200 ∧ 0x004 % 4 = 0) ∧
      ((hosting [wr (.rxdata 63) 0]).program.head? = some (.write (busAddress 0x1FC) 32 0) ∧
        0x1FC < 0x200 ∧ 0x1FC % 4 = 0) ∧
      State.reset.program.head? = none :=
  ⟨by decide, by decide, Nat.le_refl _, fun h => by unfold busAddress; omega,
    fun _ _ _ => ⟨hosting_turn _ _, waiting_turn _ _⟩, ⟨rfl, by decide, by decide⟩,
    ⟨rfl, by decide, by decide⟩, rfl⟩
theorem witness_LoadRxLoadsAResponse :
    ∀ n ∈ [1, Config.rxCap], 1 ≤ (List.replicate n (0xFF : Byte)).length ∧
      (List.replicate n (0xFF : Byte)).length ≤ Config.rxCap ∧
      ∃ s : State, s.busy = false ∧ s.schedule = [] ∧
        s.program = loadRx (List.replicate n 0xFF) ++ doCommand .decStatus := by
  intro n hn
  have h : 1 ≤ n ∧ n ≤ Config.rxCap := by
    have := rxCap_ge
    simp only [List.mem_cons, List.not_mem_nil, or_false] at hn
    omega
  simp only [List.length_replicate]
  exact ⟨h.1, h.2, hosting (loadRx (List.replicate n 0xFF) ++ doCommand .decStatus), rfl, rfl, rfl⟩
/-- An idle state but for a command accepted and not yet performed. -/
def accepted (w : Word) (ms : List Move) : State :=
  { accept w State.reset with schedule := ms }
theorem witness_BothOrdersOfARace (w : Word) (ms : List Move) :
    ∀ s ∈ [accepted 0x00000010 ms, accepted 0x00000030 ms,
        { exchangeAt .send [0x00, 0x00, 0x01, 0xB0] with chanWrites := [.err], schedule := ms },
        { exchangeAt .wait [0x00, 0x00, 0x01, 0xB0] with schedule := ms }],
      s.busy = true ∧ s.schedule = ms ∧
        ({ s with program := [wr .cmd w] } : State).program =
          .write (busAddress 0x000) 32 w :: [] ∧
        CompletesNow (stepStart { s with program := [wr .cmd w] }) ∧
        CompletesNow (stepStart (stepStart { s with program := [wr .cmd w] })) := by
  have hp : decodeCommand 0x00000010 ≠ .xchg := by decide +kernel
  have hx : decodeCommand 0x00000030 = .xchg := by decide +kernel
  intro s hs
  simp only [List.mem_cons, List.not_mem_nil, or_false] at hs
  rcases hs with rfl | rfl | rfl | rfl
  · exact ⟨rfl, rfl, rfl, .inl ⟨rfl, .inl hp⟩, .inl ⟨rfl, .inl hp⟩⟩
  · exact ⟨rfl, rfl, rfl, .inl ⟨rfl, .inr rfl⟩, .inl ⟨rfl, .inr rfl⟩⟩
  · exact ⟨rfl, rfl, rfl, .inr ⟨hx, .inl ⟨rfl, rfl⟩⟩, .inr ⟨hx, .inl ⟨rfl, rfl⟩⟩⟩
  · exact ⟨rfl, rfl, rfl, .inr ⟨hx, .inr rfl⟩, .inr ⟨hx, .inr rfl⟩⟩
theorem witness_ResetFromAnyState : (scheduled [.reset]).schedule = [.reset] := rfl
theorem witness_FirstCommandsAfterReset : shapeSize .decEnergy4 = some 19 := rfl
theorem witness_StepRunsTheDecodedInstruction :
    (decode .command (wordBytes (accepted 0x00000010 []).pending) = .ok .encProbe ∧
      controllerEnabled (accepted 0x00000010 []) = true ∧ (accepted 0x00000010 []).schedule = []) ∧
      (controllerEnabled (accepted 0x00000010 [.controller]) = true ∧
        (accepted 0x00000010 [.controller]).schedule = [.controller]) := by decide +kernel
theorem witness_StepKeepsTheInvariant :
    Invariant (accepted 0x00000000 []) ∧ ∃ t, step (accepted 0x00000000 []) = .next t := by
  refine ⟨?_, _, rfl⟩
  constructor <;> simp [accepted, accept, State.reset, Memory.wf, exchanging]
theorem witness_ValuesChangeOnlyByADecode :
    (∃ t, step (placeCommand (loaded [0x00, 0x05, 0xC1, 0xB3]) 0x00000020) = .next t ∧ t.val0 = 5) ∧
      (∃ t, step { scheduled [.reset] with val0 := 5 } = .next t ∧ t.val0 = 0) :=
  ⟨after_eq (f := State.val0) (by decide +kernel), after_eq (f := State.val0) (by decide +kernel)⟩
theorem witness_TxChangesOnlyByTheSerializer :
    (∃ t, step (placeCommand State.reset 0x00000010) = .next t ∧ t.txlen = 4) ∧
      (∃ t, step { scheduled [.reset] with txlen := 4 } = .next t ∧ t.txlen = 0) :=
  ⟨after_eq (f := State.txlen) (by decide +kernel), after_eq (f := State.txlen) (by decide +kernel)⟩
theorem witness_CrcChangesOnlyByItsWriters :
    (∃ t, step (placeCommand (loaded []) 0x00000001) = .next t ∧ t.crc = 0xFFFF) ∧
      (∃ t, step (placeCommand State.reset 0x00000002) = .next t ∧ t.crc = 0x40BF) ∧
      (∃ t, step (placeCommand State.reset 0x00000010) = .next t ∧ t.crc = 0xB001) ∧
      (∃ t, step (placeCommand (loaded [0x00, 0x00, 0xB0, 0x01]) 0x00000020) = .next t ∧
        t.crc = 0xB001) ∧
      (∃ t, step { scheduled [.reset] with crc := 0x1234 } = .next t ∧ t.crc = 0xFFFF) :=
  ⟨after_eq (f := State.crc) (by decide +kernel), after_eq (f := State.crc) (by decide +kernel),
    after_eq (f := State.crc) (by decide +kernel), after_eq (f := State.crc) (by decide +kernel),
    after_eq (f := State.crc) (by decide +kernel)⟩
theorem witness_RxChangesOnlyByExchangeOrHost :
    (∃ t, step { exchangeAt .wait [] with rxlen := 4, chanWaits := [.expired] } = .next t ∧
      t.rxlen = 0) ∧
      (∃ t, step { hosting [wr .rxlen 0] with rxlen := 4 } = .next t ∧ t.rxlen = 0) ∧
      (∃ t, step { scheduled [.reset] with rxlen := 4 } = .next t ∧ t.rxlen = 0) :=
  ⟨after_eq (f := State.rxlen) (by decide +kernel),
    after_eq (f := State.rxlen) (after_write (off := 0x028) (more := []) (rest := [])
      ⟨rfl, .inr ⟨rfl, rfl, rfl⟩⟩ (by decide) (by decide) rfl),
    after_eq (f := State.rxlen) (by decide +kernel)⟩
theorem witness_ParametersChangeOnlyByTheHost :
    (∃ t, step (hosting [wr .subidx 0x11]) = .next t ∧ t.subidx = 0x11) ∧
      (∃ t, step { scheduled [.reset] with subidx := 0x11 } = .next t ∧ t.subidx = 0x00) :=
  ⟨after_eq (f := State.subidx) (after_write (off := 0x00C) (hosting_turn _ _) (by decide) (by decide)
      (by decide +kernel)),
    after_eq (f := State.subidx) (by decide +kernel)⟩
theorem witness_ResultChangesOnlyAtCompletion :
    (∃ t, step (placeCommand State.reset 0x00000000) = .next t ∧ t.result = .illegalOp) ∧
      (∃ t, step { scheduled [.reset] with result := .illegalOp } = .next t ∧ t.result = .ok) :=
  ⟨after_eq (f := State.result) (by decide +kernel), after_eq (f := State.result) (by decide +kernel)⟩

end Sys2Proof.Tests
end

section
/-! SUPPORT. The invariant of the machine, kept by every named update of the state, and from there by every step
(spec/10_state.md R25 to R41; spec/43_exchange.md R196, R198). -/

namespace Sys2Proof.Machine

/-- A word is its opcode, ARG and RSV (spec/30_encoding.md R81). -/
theorem word_eq_of_fields {w v : Word} (hop : w.extractLsb' 0 8 = v.extractLsb' 0 8)
    (harg : w.extractLsb' 8 8 = v.extractLsb' 8 8) (hrsv : w.extractLsb' 16 16 = v.extractLsb' 16 16) :
    w = v := by
  have h0 := congrArg BitVec.toNat hop
  have h1 := congrArg BitVec.toNat harg
  have h2 := congrArg BitVec.toNat hrsv
  simp only [BitVec.extractLsb'_toNat, Nat.shiftRight_eq_div_pow] at h0 h1 h2
  apply BitVec.eq_of_toNat_eq
  have := w.isLt
  have := v.isLt
  omega

theorem decodeOpcode_eq_xchg {w : Word} (h : decodeOpcode w = .xchg) : w.extractLsb' 0 8 = 0x30 := by
  unfold decodeOpcode at h
  split at h <;> cases h
  exact BitVec.eq_of_toNat_eq ‹_›

/-- XCHG has one word (spec/30_encoding.md R83). -/
theorem decodeCommand_eq_xchg {w : Word} (h : decodeCommand w = .xchg) : w = 0x00000030 := by
  rcases decodeCommand_cases w with hi | ⟨hrsv, ⟨_, hb⟩ | ⟨harg, _, hop⟩⟩
  · simp [hi] at h
  · simp [hb] at h
  · have hcode := decodeOpcode_eq_xchg (hop ▸ h)
    exact word_eq_of_fields hcode harg hrsv

theorem busy_of_controllerEnabled {s : State} (h : controllerEnabled s = true) : s.busy = true :=
  (Bool.and_eq_true_iff.1 h).1

theorem RequestBody.length_le {body : List Byte} (h : RequestBody body) :
    body.length + 2 ≤ Config.txCap := by
  cases h <;> simp [Config.txCap]

theorem txHolds_emit {body : List Byte} (h : RequestBody body) (s : State) :
    TxHolds (withCrc body) (emit body s) := by
  have hle := h.length_le
  refine ⟨?_, fun i hi => ?_⟩
  · rw [emit_txlen, BitVec.toNat_ofNat, withCrc_length]
    exact Nat.mod_eq_of_lt (by unfold Config.txCap at hle; omega)
  · rw [holdsFrame_emit body s i, if_pos hi]

namespace Invariant

variable {s : State}

theorem dvalid_of_busy (h : Invariant s) (hb : s.busy = true) : s.dvalid = false := by
  rw [Bool.eq_false_iff]
  intro hd
  have hdone := (h.dvalidDone hd).1
  simp [h.doneIdle hdone] at hb

/-- The invariant says nothing of the schedule and the draw counter, -/
theorem stepStart (h : Invariant s) : Invariant (stepStart s) := { h with }

/-- nor of the host's program and what the host has read, -/
theorem hostBook (h : Invariant s) (p : List HostInstr) (r : List Word) :
    Invariant { s with program := p, hostReads := r } := { h with }

/-- nor of the CRC register, -/
theorem withCrcReg (h : Invariant s) (c : Half) : Invariant { s with crc := c } := { h with }

/-- nor of the channel's coming answers. -/
theorem withAnswers (h : Invariant s) (ws : List WriteAnswer) (as : List WaitAnswer)
    (rs : List ReadAnswer) :
    Invariant { s with chanWrites := ws, chanWaits := as, chanReads := rs } := { h with }

/-- A completion with OK, or of a command in progress with any code. -/
theorem complete (h : Invariant s) {c : ResultCode} (hc : c = .ok ∨ s.busy = true) :
    Invariant (complete c s) :=
  { h with
    busyState := by simp
    doneIdle := fun _ => rfl
    dvalidDone := fun hd => ⟨rfl, hc.elim id fun hb => by simp [h.dvalid_of_busy hb] at hd⟩
    exchange := nofun
    timerTurn := nofun
    timerWait := nofun }

theorem emit (h : Invariant s) {body : List Byte} (hbody : RequestBody body) :
    Invariant (emit body s) :=
  { h.complete (c := .ok) (.inl rfl) with
    txWf := memWriteBytes_wf h.txWf 0 _
    txBound := memWriteBytes_bound h.txBound 0 _ (by simpa using hbody.length_le)
    txFrame := .inr ⟨_, ⟨body, hbody, rfl⟩, txHolds_emit hbody s⟩
    exchange := nofun }

theorem decoded (h : Invariant s) (v : Values) : Invariant (decoded v s) :=
  { h.complete (c := .ok) (.inl rfl) with dvalidDone := fun _ => ⟨rfl, rfl⟩ }

theorem decodeRx (h : Invariant s) (hb : s.busy = true) (n : Nat) (v : Values) :
    Invariant (decodeRx n v s) := by
  rcases decodeRx_cases n v s with ⟨_, e⟩ | ⟨_, _, e⟩ | ⟨_, _, e⟩ <;> rw [e]
  · exact h.complete (.inr hb)
  · exact (h.withCrcReg _).decoded v
  · exact (h.withCrcReg _).complete (.inr hb)

theorem exchangeFailed (h : Invariant s) (hb : s.busy = true) (c : ResultCode) :
    Invariant (exchangeFailed c s) :=
  { h.complete (c := c) (.inr hb) with rxlenBound := Nat.zero_le _ }

theorem receive (h : Invariant s) {r : List Byte} (hr : r.length ≤ Config.rxCap) :
    Invariant (receive r s) :=
  { h.complete (c := .ok) (.inl rfl) with
    rxWf := memWriteBytes_wf h.rxWf 0 r
    rxBound := memWriteBytes_bound h.rxBound 0 r (by simpa using hr)
    rxlenBound := by
      rw [receive_rxlen, BitVec.toNat_ofNat]
      exact (Nat.mod_le _ _).trans hr }

/-- In an exchange, what stands in TX is a request frame (spec/43_exchange.md R196). -/
theorem requestFrame_txFrame (h : Invariant s) (hx : exchanging s.xstate = true) :
    RequestFrame (Machine.txFrame s) := by
  obtain ⟨f, hf, hold⟩ := h.txFrame.resolve_left (h.exchange hx).2
  rwa [txFrame_of_txHolds hold]

theorem startExchange (h : Invariant s) (hb : s.busy = true) (hp : s.pending = 0x00000030) :
    Invariant (startExchange s) := by
  rcases startExchange_cases s with ⟨_, e⟩ | ⟨hlen, e⟩ <;> rw [e]
  · exact h.complete (.inr hb)
  · exact { h with
      busyState := by simp [hb]
      exchange := fun _ => ⟨hp, hlen⟩
      timerTurn := nofun
      timerWait := nofun }

theorem sendFrame (h : Invariant s) (hb : s.busy = true) (hx : exchanging s.xstate = true) :
    Invariant (sendFrame (Machine.txFrame s) s) := by
  rcases sendFrame_cases (Machine.txFrame s) s with ⟨_, e⟩ | ⟨_, e⟩ <;> rw [e]
  · exact { h with
      sentFrames := by
        simpa [or_imp, forall_and] using ⟨h.sentFrames, h.requestFrame_txFrame hx⟩
      busyState := by simp [hb]
      exchange := fun _ => h.exchange hx
      timerTurn := fun _ => Nat.zero_le _
      timerWait := nofun }
  · exact (h.withAnswers s.chanWrites.tail _ _).exchangeFailed hb _

theorem waitAndRead (h : Invariant s) (hb : s.busy = true) : Invariant (waitAndRead s) := by
  rcases waitAndRead_cases s with ⟨_, e⟩ | ⟨_, _, e⟩ | ⟨_, r, _, _, hr, e⟩ <;> rw [e]
  · exact { exchangeFailed h hb .timeout with timerTurn := nofun, timerWait := nofun }
  · exact (h.withAnswers _ s.chanWaits.tail s.chanReads.tail).exchangeFailed hb _
  · exact (h.withAnswers _ _ _).receive hr

theorem execXchg (h : Invariant s) (hb : s.busy = true) (hp : s.pending = 0x00000030) {t : State}
    (ht : execXchg s = .next t) : Invariant t := by
  rcases execXchg_cases s with ⟨_, e⟩ | ⟨hx, e⟩ | ⟨hx, e⟩ | ⟨_, e⟩ <;> rw [e] at ht <;>
    injection ht with ht <;> subst ht
  · exact h.startExchange hb hp
  · exact h.sendFrame hb (by rw [hx]; rfl)
  · exact { h with
      busyState := by simp [hb]
      exchange := fun _ => h.exchange (by rw [hx]; rfl)
      timerTurn := nofun
      timerWait := fun _ => Nat.zero_le _ }
  · exact h.waitAndRead hb

theorem exec (h : Invariant s) (hb : s.busy = true) {t : State}
    (ht : exec (currentInstr s) s = .next t) : Invariant t := by
  rcases exec_command_cases (portOf_decodeCommand s.pending) ht with
    ⟨_, rfl⟩ | ⟨_, _, rfl⟩ | ⟨_, body, hbody, rfl⟩ | ⟨n, v, _, rfl⟩ | ⟨_, _, rfl⟩ | ⟨hi, hx⟩
  · exact (h.withCrcReg _).complete (.inl rfl)
  · exact (h.withCrcReg _).complete (.inl rfl)
  · exact h.emit hbody
  · exact h.decodeRx hb n v
  · exact h.complete (.inr hb)
  · exact h.execXchg hb (decodeCommand_eq_xchg hi) hx

theorem timePasses (h : Invariant s) (ms : Nat) : Invariant (timePasses ms s) := by
  unfold Machine.timePasses
  split
  next hx => exact { h with timerTurn := fun _ => Nat.min_le_right _ _, timerWait := by simp [hx] }
  next hx => exact { h with timerTurn := by simp [hx], timerWait := fun _ => Nat.min_le_right _ _ }
  next => exact h

theorem accept (h : Invariant s) (w : Word) : Invariant (accept w s) :=
  { h with
    busyState := by simp
    doneIdle := nofun
    dvalidDone := nofun
    exchange := nofun
    timerTurn := nofun
    timerWait := nofun }

theorem writeReg (h : Invariant s) (w : Word) (r : Reg) : Invariant (writeReg w s r) := by
  cases r
  case cmd => exact h.accept w
  case rxlen =>
    simp only [Machine.writeReg]
    split
    · exact { h with rxlenBound := by assumption }
    · exact h
  case rxdata k =>
    exact { h with
      rxWf := writeRxLanes_wf h.rxWf _ _
      rxBound := writeRxLanes_bound h.rxBound _ _ }
  all_goals exact { h with }

theorem regWrite (h : Invariant s) (off : Nat) (w : Word) : Invariant (regWrite off w s) := by
  cases hb : s.busy
  · rw [regWrite_idle hb]
    exact h.writeReg w _
  · rw [regWrite_busy hb]
    split
    · exact { h with }
    · exact h

end Invariant

/-- Settles O53: nothing is written, in progress or on the line at reset. -/
theorem resetMeetsTheInvariant : Obligations.ResetMeetsTheInvariant where
  txWf := reset_memory_wf.1
  txBound := nofun
  rxWf := reset_memory_wf.2
  rxBound := nofun
  rxlenBound := Nat.zero_le _
  txFrame := .inl rfl
  sentFrames := nofun
  busyState := by simp [State.reset]
  doneIdle := nofun
  dvalidDone := nofun
  exchange := nofun
  timerTurn := nofun
  timerWait := nofun

/-- Settles O54: each of the five things a step can be keeps the invariant. -/
theorem stepKeepsTheInvariant : Obligations.StepKeepsTheInvariant := by
  intro s t hs hst
  have h := hs.stepStart
  rcases step_cases hst with
    ⟨hen, he⟩ | ⟨ms, rfl⟩ | ⟨p, r, rfl⟩ | ⟨_, _, w, more, off, _, rfl⟩ | ⟨_, rfl⟩
  · exact h.exec (busy_of_controllerEnabled hen) he
  · exact h.timePasses ms
  · exact h.hostBook p r
  · exact (h.hostBook more (stepStart s).hostReads).regWrite off w
  · exact { resetMeetsTheInvariant with sentFrames := hs.sentFrames }

end Sys2Proof.Machine
end

section
/-! SUPPORT. What a step changes of what the host reads, and which agent makes it change (spec/10_state.md R29, R36 to
R42). -/

namespace Sys2Proof.Machine

/-- What commands alone compute is as before: the values, TX, CRC and RESULT. -/
structure SameOutputs (s t : State) : Prop where
  values : SameValues s t
  tx : t.tx = s.tx
  txlen : t.txlen = s.txlen
  crc : t.crc = s.crc
  result : t.result = s.result

theorem SameOutputs.refl (s : State) : SameOutputs s s := ⟨⟨rfl, rfl, rfl, rfl⟩, rfl, rfl, rfl, rfl⟩

theorem writeReg_sameOutputs (w : Word) (s : State) (r : Reg) : SameOutputs s (writeReg w s r) := by
  cases r
  case rxlen =>
    simp only [writeReg]
    split <;> exact { SameOutputs.refl s with }
  all_goals exact { SameOutputs.refl s with }

theorem regWrite_sameOutputs (off : Nat) (w : Word) (s : State) :
    SameOutputs s (regWrite off w s) := by
  cases hb : s.busy
  · rw [regWrite_idle hb]
    exact writeReg_sameOutputs w s _
  · rw [regWrite_busy hb]
    split <;> exact { SameOutputs.refl s with }

theorem writeReg_program (w : Word) (s : State) (r : Reg) : (writeReg w s r).program = s.program := by
  cases r
  case rxlen =>
    simp only [writeReg]
    split <;> rfl
  all_goals rfl

/-- Only the command in progress computes: any other step keeps the outputs, or is a reset. -/
theorem step_performs_or_sameOutputs {s t : State} (h : step s = .next t) :
    (s.busy = true ∧ exec (decodeCommand s.pending) (stepStart s) = .next t) ∨
      SameOutputs s t ∨ s.schedule.head? = some .reset := by
  rcases step_cases h with
    ⟨hen, he⟩ | ⟨ms, rfl⟩ | ⟨_, _, rfl⟩ | ⟨_, _, w, more, off, _, rfl⟩ | ⟨hr, _⟩
  · exact .inl ⟨busy_of_controllerEnabled hen, he⟩
  · obtain ⟨k, e⟩ := timePasses_eq ms (stepStart s)
    exact .inr (.inl (e ▸ { SameOutputs.refl s with }))
  · exact .inr (.inl { SameOutputs.refl s with })
  · exact .inr (.inl { regWrite_sameOutputs off w { stepStart s with program := more } with })
  · exact .inr (.inr hr)

/-- XCHG leaves the values, TX and CRC alone; it changes RX, RXLEN and RESULT only where it completes. -/
theorem execXchg_frame {s t : State} (h : execXchg s = .next t) :
    (SameValues s t ∧ t.tx = s.tx ∧ t.txlen = s.txlen ∧ t.crc = s.crc) ∧
      ((t.busy = false ∧ t.done = true ∧ t.xstate = .idle) ∨
        (t.rx = s.rx ∧ t.rxlen = s.rxlen ∧ t.result = s.result)) := by
  rcases execXchg_cases s with ⟨_, e⟩ | ⟨_, e⟩ | ⟨_, e⟩ | ⟨_, e⟩ <;> rw [e] at h <;>
    injection h with h <;> subst h
  · rcases startExchange_cases s with ⟨_, e⟩ | ⟨_, e⟩ <;> simp [e, SameValues]
  · rcases sendFrame_cases (txFrame s) s with ⟨_, e⟩ | ⟨_, e⟩ <;> simp [e, SameValues]
  · simp [SameValues]
  · rcases waitAndRead_cases s with ⟨_, e⟩ | ⟨_, _, e⟩ | ⟨_, r, _, _, _, e⟩ <;> simp [e, SameValues]

/-- A decoder changes the values only with OK, and CRC only past its size check; TX and RX it leaves alone, and it always
completes. -/
theorem decodeRx_frame (n : Nat) (v : Values) (s : State) :
    (SameValues s (decodeRx n v s) ∨
        ((decodeRx n v s).result = .ok ∧ (decodeRx n v s).dvalid = true)) ∧
      ((decodeRx n v s).crc = s.crc ∨ s.rxlen.toNat = n) ∧
      ((decodeRx n v s).tx = s.tx ∧ (decodeRx n v s).txlen = s.txlen) ∧
      ((decodeRx n v s).rx = s.rx ∧ (decodeRx n v s).rxlen = s.rxlen) ∧
      ((decodeRx n v s).busy = false ∧ (decodeRx n v s).done = true ∧
        (decodeRx n v s).xstate = .idle) := by
  rcases decodeRx_cases n v s with ⟨_, e⟩ | ⟨hn, _, e⟩ | ⟨hn, _, e⟩
  · simp [e, SameValues]
  · simp [e, hn]
  · simp [e, hn, SameValues]

/-- Settles O55: of the commands only a decoder touches the values. -/
theorem valuesChangeOnlyByADecode : Obligations.ValuesChangeOnlyByADecode := by
  intro s t h hne
  rcases step_performs_or_sameOutputs h with ⟨hb, he⟩ | hs | hr
  · left
    rcases exec_command_cases (portOf_decodeCommand _) he with
      ⟨_, rfl⟩ | ⟨_, _, rfl⟩ | ⟨_, _, _, rfl⟩ | ⟨n, v, hn, rfl⟩ | ⟨_, _, rfl⟩ | ⟨_, hx⟩
    case inr.inr.inr.inl =>
      obtain ⟨hv, -, -, -, -, hd, -⟩ := decodeRx_frame n v (stepStart s)
      obtain ⟨hr, hdv⟩ := hv.resolve_left hne
      exact ⟨hb, ⟨n, hn⟩, hr, hdv, hd⟩
    case inr.inr.inr.inr.inr => exact absurd (execXchg_frame hx).1.1 hne
    all_goals exact absurd ⟨rfl, rfl, rfl, rfl⟩ hne
  · exact absurd hs.values hne
  · exact .inr hr

/-- Settles O56: of the commands only a serializer's touches TX and TXLEN. -/
theorem txChangesOnlyByTheSerializer : Obligations.TxChangesOnlyByTheSerializer := by
  intro s t h hne
  rcases step_performs_or_sameOutputs h with ⟨hb, he⟩ | hs | hr
  · left
    rcases exec_command_cases (portOf_decodeCommand _) he with
      ⟨_, rfl⟩ | ⟨_, _, rfl⟩ | ⟨hser, _⟩ | ⟨n, v, _, rfl⟩ | ⟨_, _, rfl⟩ | ⟨_, hx⟩
    · simp at hne
    · simp at hne
    · exact ⟨hb, hser⟩
    · obtain ⟨-, -, ⟨htx, hlen⟩, -⟩ := decodeRx_frame n v (stepStart s)
      simp [htx, hlen] at hne
    · simp at hne
    · obtain ⟨⟨-, htx, hlen, -⟩, -⟩ := execXchg_frame hx
      simp [htx, hlen] at hne
  · simp [hs.tx, hs.txlen] at hne
  · exact .inr hr

/-- Settles O57: CRC.INIT, CRC.BYTE, the serializer and a decoder past its size check touch CRC, and no other command. -/
theorem crcChangesOnlyByItsWriters : Obligations.CrcChangesOnlyByItsWriters := by
  intro s t h hne
  rcases step_performs_or_sameOutputs h with ⟨hb, he⟩ | hs | hr
  · refine .inl ⟨hb, ?_⟩
    rcases exec_command_cases (portOf_decodeCommand _) he with
      ⟨hi, _⟩ | ⟨b, hi, _⟩ | ⟨hser, _⟩ | ⟨n, v, hn, rfl⟩ | ⟨_, _, rfl⟩ | ⟨_, hx⟩
    · exact .inl hi
    · exact .inr (.inl ⟨b, hi⟩)
    · exact .inr (.inr (.inl hser))
    · obtain ⟨-, hc, -⟩ := decodeRx_frame n v (stepStart s)
      have hlen : s.rxlen.toNat = n := hc.resolve_left hne
      exact .inr (.inr (.inr (hlen ▸ hn)))
    · exact absurd rfl hne
    · obtain ⟨⟨-, -, -, hcrc⟩, -⟩ := execXchg_frame hx
      exact absurd hcrc hne
  · exact absurd hs.crc hne
  · exact .inr hr

/-- Settles O60: every command but XCHG completes in its one step, and XCHG changes RESULT only where it completes. -/
theorem resultChangesOnlyAtCompletion : Obligations.ResultChangesOnlyAtCompletion := by
  intro s t h hne
  rcases step_performs_or_sameOutputs h with ⟨hb, he⟩ | hs | hr
  · refine .inl ⟨hb, ?_⟩
    rcases exec_command_cases (portOf_decodeCommand _) he with
      ⟨_, rfl⟩ | ⟨_, _, rfl⟩ | ⟨_, _, _, rfl⟩ | ⟨n, v, _, rfl⟩ | ⟨_, _, rfl⟩ | ⟨_, hx⟩
    case inr.inr.inr.inl =>
      obtain ⟨-, -, -, -, hdone⟩ := decodeRx_frame n v (stepStart s)
      exact hdone
    case inr.inr.inr.inr.inr =>
      obtain ⟨-, hdone | ⟨-, -, hres⟩⟩ := execXchg_frame hx
      · exact hdone
      · exact absurd hres hne
    all_goals exact ⟨rfl, rfl, rfl⟩
  · exact absurd hs.result hne
  · exact .inr hr

/-- Of the commands only XCHG touches RX and RXLEN, and only where it completes. -/
theorem exec_rx {i : Instr} {s t : State} (hp : portOf i = .command) (h : exec i s = .next t) :
    (i = .xchg ∧ t.done = true) ∨ (t.rx = s.rx ∧ t.rxlen = s.rxlen) := by
  rcases exec_command_cases hp h with
    ⟨_, rfl⟩ | ⟨_, _, rfl⟩ | ⟨_, _, _, rfl⟩ | ⟨n, v, _, rfl⟩ | ⟨_, _, rfl⟩ | ⟨hi, hx⟩
  case inr.inr.inr.inl =>
    obtain ⟨-, -, -, hrx, -⟩ := decodeRx_frame n v s
    exact .inr hrx
  case inr.inr.inr.inr.inr =>
    obtain ⟨-, ⟨-, hd, -⟩ | ⟨hrx, hlen, -⟩⟩ := execXchg_frame hx
    · exact .inl ⟨hi, hd⟩
    · exact .inr ⟨hrx, hlen⟩
  all_goals exact .inr ⟨rfl, rfl⟩

/-- Settles O58: a host write reaches RX and RXLEN only while BUSY = 0, and the controller only as an XCHG. -/
theorem rxChangesOnlyByExchangeOrHost : Obligations.RxChangesOnlyByExchangeOrHost := by
  intro s t h hne
  rcases step_cases h with
    ⟨hen, he⟩ | ⟨ms, rfl⟩ | ⟨_, _, rfl⟩ | ⟨a, width, w, more, off, hprog, rfl⟩ | ⟨hr, _⟩
  · rcases exec_rx (portOf_decodeCommand _) he with ⟨hi, hd⟩ | ⟨hrx, hlen⟩
    · exact .inl ⟨busy_of_controllerEnabled hen, hi, hd⟩
    · simp [hrx, hlen] at hne
  · simp at hne
  · simp at hne
  · right; left
    cases hb : s.busy
    · rw [regWrite_idle (by exact hb), writeReg_program]
      exact ⟨rfl, a, width, w, hprog⟩
    · rw [regWrite_busy (by exact hb)] at hne
      split at hne <;> simp at hne
  · exact .inr (.inr hr)

end Sys2Proof.Machine
end

section
/-! SUPPORT. The register window as the host sees it: offsets, byte lanes, CAPS and STATUS, and what a write stores
(spec/10_state.md R22 to R45; spec/20_memory.md R68). -/

namespace Sys2Proof.Machine

theorem regAt_txdata {j : Nat} (hj : j < 3) : regAt (0x080 + 4 * j) = .txdata j := by
  interval_cases j <;> rfl

theorem regAt_rxdata (k : Nat) : regAt (0x100 + 4 * k) = .rxdata k := by
  unfold regAt
  split <;> try omega -- every listed offset lies below 0x100
  rw [if_pos (by omega)]
  congr 1
  omega

/-- Lane `m` of a word made of the bytes that `f` gives from cell `i` on. -/
theorem extractLsb'_wordOfLanes (f : Nat → Byte) (i : Nat) {m : Nat} (hm : m < 4) :
    (wordOfLanes (f i) (f (i + 1)) (f (i + 2)) (f (i + 3))).extractLsb' (8 * m) 8 = f (i + m) := by
  obtain ⟨h0, h1, h2, h3⟩ := wordLane_wordOfLanes (f i) (f (i + 1)) (f (i + 2)) (f (i + 3))
  interval_cases m
  · exact h0
  · exact h1
  · exact h2
  · exact h3

theorem wordBytes_getElem? (w : Word) {m : Nat} (hm : m < 4) :
    (wordBytes w)[m]? = some (w.extractLsb' (8 * m) 8) := by
  interval_cases m <;> rfl

/-- A capacity of one byte stands beside TXCAP = 11 with no carry (spec/10_state.md R39). -/
theorem capsOf_eq {n : Nat} (h : n ≤ 255) : capsOf n = 0x00000B00 + BitVec.ofNat 32 n := by
  have hn : BitVec.ofNat 32 n = (BitVec.ofNat 8 n).zeroExtend 32 := by
    apply BitVec.eq_of_toNat_eq
    simp only [BitVec.zeroExtend_eq_setWidth, BitVec.toNat_setWidth, BitVec.toNat_ofNat]
    omega
  have hdisj : (BitVec.ofNat 8 Config.txCap).zeroExtend 32 <<< 8 &&&
      (BitVec.ofNat 8 n).zeroExtend 32 = 0 := by
    ext i hi
    by_cases h8 : i < 8
    · simp [h8]
    · simp [BitVec.getLsbD_of_ge (BitVec.ofNat 8 n) i (by omega)]
  rw [hn, capsOf, BitVec.or_comm, ← BitVec.add_eq_or_of_and_eq_zero _ _ hdisj]
  rfl

theorem statusWord_result (s : State) : (statusWord s).extractLsb' 4 4 = resultBits s.result := by
  unfold statusWord
  ext i hi
  interval_cases i <;> simp

theorem statusWord_xstate (s : State) : (statusWord s).extractLsb' 8 4 = xstateBits s.xstate := by
  unfold statusWord
  ext i hi
  interval_cases i <;> simp

theorem statusWord_reserved (s : State) : (statusWord s).extractLsb' 12 20 = 0 := by
  unfold statusWord
  ext i hi
  interval_cases i <;> simp

/-- Settles O43: each offset is its register's, and the capacity stands in CAPS beside TXCAP. -/
theorem registerMapReads : Obligations.RegisterMapReads := by
  intro s
  refine ⟨rfl, rfl, rfl, rfl, rfl, rfl, rfl, rfl, rfl, rfl, rfl, ?_, rfl, rfl, rfl, rfl⟩
  exact capsOf_eq rxCap_le

/-- Settles O44, by the lanes of a word. -/
theorem bufferWindowLanes : Obligations.BufferWindowLanes := by
  intro s j m hm
  constructor
  · intro hj
    rw [regAt_txdata hj, readReg, extractLsb'_wordOfLanes (txLane s) _ hm]
    simp only [txLane, Config.txCap, Nat.lt_succ_iff]
  · intro _
    rw [regAt_rxdata, readReg, extractLsb'_wordOfLanes (rxLane s) _ hm]
    rfl

/-- Settles O45: the flags bit by bit, the two codes as fields. -/
theorem statusLayout : Obligations.StatusLayout := by
  intro s
  refine ⟨?_, ?_, ?_, ?_, ?_, ?_, statusWord_reserved s⟩
  · simp [statusWord]
  · simp [statusWord]
  · simp [statusWord]
  · simp [statusWord]
  · rw [statusWord_result]
    cases s.result <;> rfl
  · rw [statusWord_xstate]
    cases s.xstate <;> rfl

/-- Settles O49, by evaluation of the reset state. -/
theorem resetValues : Obligations.ResetValues := by
  refine ⟨by decide, rfl, rfl, rfl, rfl, rfl, rfl, rfl, rfl, rfl, rfl, rfl, rfl, rfl, rfl, rfl, rfl, ?_⟩
  exact fun _ => ⟨rfl, rfl⟩

/-- The host's turn at a supported write while BUSY = 0: the register takes it. -/
theorem step_hostWrite_idle {off : Nat} {w : Word} {more : List HostInstr} {rest : List Move}
    {s : State} (hb : s.busy = false) (ht : HostTurn (.write (busAddress off) 32 w) more rest s)
    (h : off < 0x200) (h4 : off % 4 = 0) :
    step s = .next (writeReg w (afterTurn more rest s) (regAt off)) := by
  rw [step_hostWrite ht h h4, regWrite_idle (s := afterTurn more rest s) hb]

/-- Settles O39: the register at each offset takes its field. -/
theorem parameterWritesStoreTheirFields : Obligations.ParameterWritesStoreTheirFields := by
  intro s w more rest hb
  refine ⟨?_, ?_, ?_, ?_, ?_, ?_, ?_⟩ <;> intro ht <;>
    exact step_hostWrite_idle hb ht (by decide) (by decide)

/-- Settles O40, by what a cell reads as after lanes are stored. -/
theorem rxdataWritesStoreTheirLanes : Obligations.RxdataWritesStoreTheirLanes := by
  intro s w k more rest hb hk ht
  refine ⟨writeRxLanes s.rx (4 * k) (wordBytes w), ?_, fun j hj hcap => ?_, fun i hi => ?_⟩
  · rw [step_hostWrite_idle hb ht (by omega) (by omega), regAt_rxdata]
    rfl
  · rw [memRead_writeRxLanes, if_pos ⟨by omega, by simpa [wordBytes] using hj, hcap⟩,
      Nat.add_sub_cancel_left, wordBytes_getElem? w hj]
  · rw [memRead_writeRxLanes, if_neg]
    simp only [wordBytes, List.length_cons, List.length_nil]
    omega

end Sys2Proof.Machine
end

section
/-! SUPPORT. A packed numeric field as the four byte lanes of a word, its flag bits masked (spec/20_memory.md R67;
spec/42_deserializer.md R165, R166). -/

namespace Sys2Proof.Machine

theorem d3_eq_wordOfLanes (b0 b1 b2 : Byte) : d3 b0 b1 b2 = wordOfLanes b1 b2 (b0 &&& 0x3F) 0 := by
  unfold d3 wordOfLanes
  rw [BitVec.or_comm, BitVec.or_comm _ (b2.zeroExtend 32 <<< 8), ← BitVec.or_assoc]
  simp

theorem d4_eq_wordOfLanes (b0 b1 b2 b3 : Byte) :
    d4 b0 b1 b2 b3 = wordOfLanes b2 b3 b0 (b1 &&& 0x3F) := by
  unfold d4 wordOfLanes
  generalize (b1 &&& 0x3F).zeroExtend 32 <<< 24 = x3
  generalize b0.zeroExtend 32 <<< 16 = x2
  rw [BitVec.or_comm, BitVec.or_comm _ (b3.zeroExtend 32 <<< 8), BitVec.or_comm x3 x2,
    ← BitVec.or_assoc, ← BitVec.or_assoc]

/-- Bits inside byte lane `m` of a word. -/
theorem extractLsb'_wordLane (w : Word) (m : Nat) {k n : Nat} (h : k + n ≤ 8) :
    w.extractLsb' (8 * m + k) n = (wordLane w m).extractLsb' k n := by
  unfold wordLane
  ext i hi
  simp [show k + i < 8 by omega, Nat.add_assoc]

/-- The mask keeps the six value bits, -/
theorem maskFlags_value (b : Byte) : (b &&& 0x3F).extractLsb' 0 6 = b.extractLsb' 0 6 := by
  ext i hi
  interval_cases i <;> simp

/-- and clears the two flag bits. -/
theorem maskFlags_flags (b : Byte) : (b &&& 0x3F).extractLsb' 6 2 = 0 := by
  ext i hi
  interval_cases i <;> simp

theorem extractLsb'_eq_zero_of_parts {w : Word} {i m n : Nat} (hlow : w.extractLsb' i m = 0)
    (hhigh : w.extractLsb' (i + m) n = 0) : w.extractLsb' i (n + m) = 0 := by
  rw [← BitVec.extractLsb'_append_extractLsb'_eq_extractLsb' rfl, hlow, hhigh]
  simp

/-- Settles O22, by the lanes of the word and the mask on the byte that carries the flags. -/
theorem packedFieldByteOrder : Obligations.PackedFieldByteOrder := by
  constructor
  · intro b0 b1 b2
    obtain ⟨h0, h1, h2, h3⟩ := wordLane_wordOfLanes b1 b2 (b0 &&& 0x3F) 0
    rw [← d3_eq_wordOfLanes] at h0 h1 h2 h3
    refine ⟨h0, h1, ?_, extractLsb'_eq_zero_of_parts (m := 2) (n := 8) ?_ h3⟩
    · rw [extractLsb'_wordLane _ 2 (k := 0) (by decide), h2, maskFlags_value]
    · rw [extractLsb'_wordLane _ 2 (k := 6) (by decide), h2, maskFlags_flags]
  · intro b0 b1 b2 b3
    obtain ⟨h0, h1, h2, h3⟩ := wordLane_wordOfLanes b2 b3 b0 (b1 &&& 0x3F)
    rw [← d4_eq_wordOfLanes] at h0 h1 h2 h3
    refine ⟨h0, h1, h2, ?_, ?_⟩
    · rw [extractLsb'_wordLane _ 3 (k := 0) (by decide), h3, maskFlags_value]
    · rw [extractLsb'_wordLane _ 3 (k := 6) (by decide), h3, maskFlags_flags]

end Sys2Proof.Machine
end

section
/-! SUPPORT. The parameter registers belong to the host: no command writes them (spec/20_memory.md R63;
spec/70_reset_and_hazards.md R254). -/

namespace Sys2Proof.Machine

theorem SameParameters.refl (s : State) : SameParameters s s := ⟨rfl, rfl, rfl, rfl, rfl, rfl⟩

theorem decodeRx_sameParameters (n : Nat) (v : Values) (s : State) :
    SameParameters s (decodeRx n v s) := by
  rcases decodeRx_cases n v s with ⟨_, e⟩ | ⟨_, _, e⟩ | ⟨_, _, e⟩ <;> rw [e] <;>
    exact SameParameters.refl s

theorem execXchg_sameParameters {s t : State} (h : execXchg s = .next t) : SameParameters s t := by
  rcases execXchg_cases s with ⟨_, e⟩ | ⟨_, e⟩ | ⟨_, e⟩ | ⟨_, e⟩ <;> rw [e] at h <;>
    injection h with h <;> subst h
  · rcases startExchange_cases s with ⟨_, e⟩ | ⟨_, e⟩ <;> rw [e] <;> exact SameParameters.refl s
  · rcases sendFrame_cases (txFrame s) s with ⟨_, e⟩ | ⟨_, e⟩ <;> rw [e] <;>
      exact SameParameters.refl s
  · exact SameParameters.refl s
  · rcases waitAndRead_cases s with ⟨_, e⟩ | ⟨_, _, e⟩ | ⟨_, _, _, _, _, e⟩ <;> rw [e] <;>
      exact SameParameters.refl s

theorem exec_sameParameters {i : Instr} {s t : State} (hp : portOf i = .command)
    (h : exec i s = .next t) : SameParameters s t := by
  rcases exec_command_cases hp h with
    ⟨_, rfl⟩ | ⟨_, _, rfl⟩ | ⟨_, _, _, rfl⟩ | ⟨n, v, _, rfl⟩ | ⟨_, _, rfl⟩ | ⟨_, hx⟩
  case inr.inr.inr.inl => exact decodeRx_sameParameters n v s
  case inr.inr.inr.inr.inr => exact execXchg_sameParameters hx
  all_goals exact SameParameters.refl s

/-- A write while BUSY = 1 reaches no parameter register (spec/20_memory.md R63). -/
theorem regWrite_busy_sameParameters {s : State} (h : s.busy = true) (off : Nat) (w : Word) :
    SameParameters s (regWrite off w s) := by
  rw [regWrite_busy h]
  split <;> exact SameParameters.refl s

/-- Settles O59: no command touches the parameters, and a host write reaches them only while BUSY = 0. -/
theorem parametersChangeOnlyByTheHost : Obligations.ParametersChangeOnlyByTheHost := by
  intro s t h hne
  rcases step_cases h with
    ⟨_, he⟩ | ⟨ms, rfl⟩ | ⟨_, _, rfl⟩ | ⟨a, width, w, more, off, hprog, rfl⟩ | ⟨hr, _⟩
  · exact absurd (exec_sameParameters (portOf_decodeCommand _) he) hne
  · obtain ⟨k, e⟩ := timePasses_eq ms (stepStart s)
    exact absurd (e ▸ SameParameters.refl s) hne
  · exact absurd (SameParameters.refl s) hne
  · left
    cases hb : s.busy
    · rw [regWrite_idle (by exact hb), writeReg_program]
      exact ⟨rfl, a, width, w, hprog⟩
    · exact absurd (regWrite_busy_sameParameters (by exact hb) off w) hne
  · exact .inr hr

end Sys2Proof.Machine
end

section
/-! SUPPORT. The host's accesses: reads have no side effect, reserved and read-only registers ignore writes, and only an
unsupported access or one outside the window stops a step (spec/20_memory.md R60 to R64; spec/60_exceptions.md R222). -/

namespace Sys2Proof.Machine

/-- Settles O41: a supported read only hands its value to the host. -/
theorem readsHaveNoSideEffect : Obligations.ReadsHaveNoSideEffect :=
  fun _ _ _ _ ht h h4 => step_hostRead ht h h4

/-- The registers that ignore every host write (spec/10_state.md R22, spec/20_memory.md R64). -/
def Reg.readOnly : Reg → Bool
  | .status | .crc | .txlen | .caps | .val0 | .val1 | .val2 | .val3 | .txdata _ | .reserved => true
  | .cmd | .devaddr | .subidx | .eparam | .access | .pwd0 | .pwd1 | .rxlen | .rxdata _ => false

theorem writeReg_readOnly {r : Reg} (h : r.readOnly = true) (w : Word) (s : State) :
    writeReg w s r = s := by
  revert h
  cases r <;> simp [Reg.readOnly, writeReg]

theorem regWrite_readOnly {off : Nat} (h : (regAt off).readOnly = true) (w : Word) (s : State) :
    regWrite off w s = s := by
  cases hb : s.busy
  · rw [regWrite_idle hb, writeReg_readOnly h]
  · have hcmd : regAt off ≠ .cmd := fun hc => by simp [hc, Reg.readOnly] at h
    rw [regWrite_busy hb, if_neg hcmd]

theorem regAt_reserved {off : Nat}
    (h : (0x040 ≤ off ∧ off ≤ 0x07C) ∨ (0x08C ≤ off ∧ off ≤ 0x0FC)) : regAt off = .reserved := by
  unfold regAt
  split
  case h_20 => exact if_neg (by clear * - h; omega)
  all_goals omega -- every listed offset lies outside both ranges

theorem regAt_readOnly {off : Nat} (h4 : off % 4 = 0)
    (h : off = 0x004 ∨ off = 0x020 ∨ off = 0x024 ∨ off = 0x02C ∨ (0x030 ≤ off ∧ off ≤ 0x03C) ∨
      (0x080 ≤ off ∧ off ≤ 0x088)) : (regAt off).readOnly = true := by
  rcases h with rfl | rfl | rfl | rfl | hval | htx
  · rfl
  · rfl
  · rfl
  · rfl
  · obtain rfl | rfl | rfl | rfl : off = 0x030 ∨ off = 0x034 ∨ off = 0x038 ∨ off = 0x03C := by
      omega
    all_goals rfl
  · obtain ⟨j, hj, rfl⟩ : ∃ j, j < 3 ∧ off = 0x080 + 4 * j := ⟨(off - 0x080) / 4, by omega, by omega⟩
    rw [regAt_txdata hj]
    rfl

/-- The host's turn at a write to a register that ignores it. -/
theorem step_hostWrite_readOnly {off : Nat} {w : Word} {more : List HostInstr} {rest : List Move}
    {s : State} (ht : HostTurn (.write (busAddress off) 32 w) more rest s) (h : off < 0x200)
    (h4 : off % 4 = 0) (hr : (regAt off).readOnly = true) :
    step s = .next (afterTurn more rest s) := by
  rw [step_hostWrite ht h h4, regWrite_readOnly hr]

/-- Settles O42: the offsets of both lists are of registers that ignore writes. -/
theorem reservedSpaceAndReadOnly : Obligations.ReservedSpaceAndReadOnly := by
  intro s off w more rest h4
  refine ⟨fun h => ?_, fun h ht => ?_⟩
  · have hr : regAt off = .reserved := regAt_reserved h
    exact ⟨by rw [hr]; rfl, fun ht => step_hostWrite_readOnly ht (by omega) h4 (by rw [hr]; rfl)⟩
  · exact step_hostWrite_readOnly ht (by omega) h4 (regAt_readOnly h4 h)

/-- The host's turn at any read, -/
theorem step_read {address width : Nat} {more : List HostInstr} {rest : List Move} {s : State}
    (ht : HostTurn (.read address width) more rest s) :
    step s = hostRead address width (afterTurn more rest s) := by
  obtain ⟨h1, h2, h3⟩ := step_hostTurn ht
  rw [h1, hostTurn, h2, ← h3]

/-- and at any write. -/
theorem step_write {address width : Nat} {w : Word} {more : List HostInstr} {rest : List Move}
    {s : State} (ht : HostTurn (.write address width w) more rest s) :
    step s = hostWrite address width w (afterTurn more rest s) := by
  obtain ⟨h1, h2, h3⟩ := step_hostTurn ht
  rw [h1, hostTurn, h2, ← h3]

theorem supportedAccess_eq_false {off width : Nat} (h : width ≠ 32 ∨ off % 4 ≠ 0) :
    supportedAccess off width = false := by
  simpa [supportedAccess, ← not_and_or] using h

theorem hostRead_unsupported {off width : Nat} (h : off < Config.winSize)
    (hn : width ≠ 32 ∨ off % 4 ≠ 0) (s : State) :
    hostRead (busAddress off) width s = .refused (.unsupportedAccess off width) := by
  simp [hostRead, windowOffset_busAddress h, supportedAccess_eq_false hn]

theorem hostWrite_unsupported {off width : Nat} (h : off < Config.winSize)
    (hn : width ≠ 32 ∨ off % 4 ≠ 0) (w : Word) (s : State) :
    hostWrite (busAddress off) width w s = .refused (.unsupportedAccess off width) := by
  simp [hostWrite, windowOffset_busAddress h, supportedAccess_eq_false hn]

theorem hostRead_outside {address : Nat} (h : windowOffset address = none) (width : Nat)
    (s : State) : hostRead address width s = .fault (.outsideWindow address) := by
  simp [hostRead, h]

theorem hostWrite_outside {address : Nat} (h : windowOffset address = none) (width : Nat)
    (w : Word) (s : State) : hostWrite address width w s = .fault (.outsideWindow address) := by
  simp [hostWrite, h]

/-- The next instruction of program `p`, if it is an access, is a supported one (spec/20_memory.md R60, R61). -/
structure NextAccessSupported (p : List HostInstr) : Prop where
  read : ∀ address width : Nat, p.head? = some (.read address width) →
    ∃ off : Nat, address = busAddress off ∧ off < 0x200 ∧ width = 32 ∧ off % 4 = 0
  write : ∀ (address width : Nat) (w : Word), p.head? = some (.write address width w) →
    ∃ off : Nat, address = busAddress off ∧ off < 0x200 ∧ width = 32 ∧ off % 4 = 0

theorem hostTurn_next {s : State} (h : NextAccessSupported s.program) :
    ∃ t, hostTurn s = .next t := by
  unfold hostTurn
  split
  · exact ⟨_, rfl⟩
  · rename_i address width rest hp
    obtain ⟨off, rfl, hoff, rfl, h4⟩ := h.read address width (by rw [hp]; rfl)
    exact ⟨_, hostRead_supported hoff h4 _⟩
  · rename_i address width w rest hp
    obtain ⟨off, rfl, hoff, rfl, h4⟩ := h.write address width w (by rw [hp]; rfl)
    exact ⟨_, hostWrite_supported hoff h4 w _⟩
  · exact ⟨_, rfl⟩
  · exact ⟨_, rfl⟩

theorem controllerStep_next (s : State) : ∃ t, controllerStep s = .next t := by
  unfold controllerStep
  split
  · exact exec_next _ s
  · exact ⟨s, rfl⟩

/-- Only the host's turn can stop a step. -/
theorem step_next {s : State} (h : NextAccessSupported s.program) : ∃ t, step s = .next t := by
  have hhost : ∃ t, hostTurn (stepStart s) = .next t := hostTurn_next h
  cases hs : s.schedule with
  | nil =>
    simp only [step, runStep, hs, unscheduledMove]
    split
    · exact exec_next _ _
    · split
      · exact ⟨_, rfl⟩
      · exact hhost
  | cons m rest =>
    rw [step_cons hs]
    cases m with
    | controller => exact controllerStep_next _
    | tick ms => exact ⟨_, rfl⟩
    | host => exact hhost
    | reset => exact ⟨_, rfl⟩

/-- Settles O46, by what the host's accesses answer and that no other move stops. -/
theorem onlyUnsupportedAccessesStop : Obligations.OnlyUnsupportedAccessesStop := by
  refine ⟨fun s off width w more rest h hn => ⟨fun ht => ?_, fun ht => ?_⟩,
    fun s address width w more rest h => ⟨fun ht => ?_, fun ht => ?_⟩,
    fun s hread hwrite => step_next ⟨hread, hwrite⟩⟩
  · rw [step_read ht, hostRead_unsupported h hn]
  · rw [step_write ht, hostWrite_unsupported h hn]
  · rw [step_read ht, hostRead_outside (windowOffset_outside h)]
  · rw [step_write ht, hostWrite_outside (windowOffset_outside h)]

end Sys2Proof.Machine
end

section
/-! SUPPORT. The two encodings, read back: each decoder inverts its encoder, and answers only what its bytes encode
(spec/30_encoding.md R81 to R94). -/

namespace Sys2Proof

open Sys2Proof.Machine

/-! Which command words are legal (R82). -/

/-- `decodeOpcode` lists every assigned opcode but `CRC.BYTE`'s. -/
theorem decodeOpcode_ne_illegal_iff {w : Word} (h2 : w.extractLsb' 0 8 ≠ 0x02) :
    decodeOpcode w ≠ .illegal w ↔ w.extractLsb' 0 8 ∈ opcodes := by
  unfold decodeOpcode
  split
  case h_13 => simp_all [opcodes, ← BitVec.toNat_inj] -- no listed opcode, so none of the map
  all_goals simp [opcodes, ← BitVec.toNat_inj, *]

theorem legalWord_iff (w : Word) :
    legalWord w = true ↔ w.extractLsb' 0 8 ∈ opcodes ∧ w.extractLsb' 16 16 = 0 ∧
      (w.extractLsb' 8 8 = 0 ∨ w.extractLsb' 0 8 = 0x02) := by
  simp [legalWord, and_assoc]

theorem decodeCommand_ne_illegal_iff (w : Word) :
    decodeCommand w ≠ .illegal w ↔ legalWord w = true := by
  rw [legalWord_iff, decodeCommand]
  by_cases hrsv : w.extractLsb' 16 16 = 0
  · rw [if_neg (not_not.2 hrsv)]
    by_cases h2 : w.extractLsb' 0 8 = 0x02
    · simp [hrsv, h2, opcodes]
    · rw [if_neg h2]
      by_cases harg : w.extractLsb' 8 8 = 0
      · rw [if_neg (not_not.2 harg), decodeOpcode_ne_illegal_iff h2]
        simp only [hrsv, harg, true_or, and_true]
      · simp only [harg, h2, or_self, and_false, ne_eq, not_false_eq_true, if_true, not_true]
  · simp only [hrsv, false_and, and_false, ne_eq, not_false_eq_true, if_true, not_true]

theorem decodeCommand_illegal {w : Word} (h : legalWord w = false) : decodeCommand w = .illegal w := by
  by_contra hne
  simp [(decodeCommand_ne_illegal_iff w).1 hne] at h

/-! Command words (R81, R83). -/

theorem encode_of_command {i : Instr} (h : portOf i = .command) :
    encode i = wordBytes (encodeCommand i) := by
  cases i <;> cases h <;> rfl

theorem decode_command_wordBytes (w : Word) :
    decode .command (wordBytes w) = .ok (decodeCommand w) :=
  congrArg (fun v => Except.ok (decodeCommand v)) (wordOfLanes_wordLane w)

theorem decodeCommand_crcByte (b : Byte) : decodeCommand (commandWord 0x02 b) = .crcByte b := by
  obtain ⟨hop, harg, hrsv⟩ := commandWord_fields 0x02 b
  rw [decodeCommand, if_neg (not_not.2 hrsv), if_pos hop, harg]

theorem decodeCommand_encodeCommand {i : Instr} (hp : portOf i = .command)
    (hw : wellFormed i = true) : decodeCommand (encodeCommand i) = i := by
  cases i <;> cases hp
  case crcByte b => exact decodeCommand_crcByte b
  case illegal w =>
    have hl : legalWord w = false := by simpa [wellFormed] using hw
    exact decodeCommand_illegal hl
  all_goals rfl

/-- A word with RSV and ARG 0 is the one its opcode encodes. -/
theorem commandWord_zero_eq {w : Word} {op : Byte} (hop : (w.extractLsb' 0 8).toNat = op.toNat)
    (harg : w.extractLsb' 8 8 = 0) (hrsv : w.extractLsb' 16 16 = 0) : commandWord op 0 = w := by
  obtain ⟨hop', harg', hrsv'⟩ := commandWord_fields op 0
  exact word_eq_of_fields (hop'.trans (BitVec.eq_of_toNat_eq hop).symm) (harg'.trans harg.symm)
    (hrsv'.trans hrsv.symm)

theorem encodeCommand_decodeOpcode {w : Word} (harg : w.extractLsb' 8 8 = 0)
    (hrsv : w.extractLsb' 16 16 = 0) : encodeCommand (decodeOpcode w) = w := by
  unfold decodeOpcode
  split
  case h_13 => rfl
  all_goals exact commandWord_zero_eq ‹_› harg hrsv

theorem encodeCommand_decodeCommand (w : Word) : encodeCommand (decodeCommand w) = w := by
  rcases decodeCommand_cases w with h | ⟨hrsv, ⟨hop, h⟩ | ⟨harg, -, h⟩⟩ <;> rw [h]
  · rfl
  · obtain ⟨hop', harg', hrsv'⟩ := commandWord_fields 0x02 (w.extractLsb' 8 8)
    exact word_eq_of_fields (hop'.trans hop.symm) harg' (hrsv'.trans hrsv.symm)
  · exact encodeCommand_decodeOpcode harg hrsv

theorem wellFormed_decodeCommand (w : Word) : wellFormed (decodeCommand w) = true := by
  cases hi : decodeCommand w
  case illegal v =>
    obtain rfl : v = w := by simpa [hi, encodeCommand] using encodeCommand_decodeCommand w
    have hl : ¬ legalWord v = true := fun hl => (decodeCommand_ne_illegal_iff v).2 hl hi
    simpa [wellFormed] using hl
  all_goals rfl

/-! Frames of the wire (R87, R91). -/

theorem decode_request_withCrc (body : List Byte) :
    decode .request (withCrc body) = decodeRequestBody body := by
  simp [decode]

theorem decode_response_withCrc (body : List Byte) :
    decode .response (withCrc body) = decodeResponseBody body := by
  simp [decode]

theorem decode_encode_request {i : Instr} (h : portOf i = .request) :
    decode .request (encode i) = .ok i := by
  cases i <;> cases h <;> exact decode_request_withCrc _

theorem decode_encode_response {i : Instr} (h : portOf i = .response) :
    decode .response (encode i) = .ok i := by
  cases i <;> cases h <;> exact decode_response_withCrc _

/-- Settles O2: at each port the decoder inverts the encoder. -/
theorem decodeAfterEncode : Obligations.DecodeAfterEncode := by
  intro i hw
  cases hp : portOf i with
  | command =>
    rw [encode_of_command hp, decode_command_wordBytes, decodeCommand_encodeCommand hp hw]
  | request => exact decode_encode_request hp
  | response => exact decode_encode_response hp

/-- A wire row has no operand that could be ill formed. -/
theorem wellFormed_of_wire {i : Instr} (h : portOf i ≠ .command) : wellFormed i = true := by
  cases i
  case illegal => exact absurd rfl h
  all_goals rfl

theorem decodeSubIndex_ok {a sub : Byte} {i : Instr} (h : decodeSubIndex a sub = .ok i) :
    portOf i = .request ∧ encode i = withCrc [a, 0x08, 0x16, sub] := by
  unfold decodeSubIndex at h
  split at h
  case h_8 => cases h
  all_goals
    cases h
    exact ⟨rfl, congrArg (fun x => withCrc [a, 0x08, 0x16, x]) (BitVec.eq_of_toNat_eq (Eq.symm ‹_›))⟩

theorem decodeRequestBody_ok {body : List Byte} {i : Instr} (h : decodeRequestBody body = .ok i) :
    portOf i = .request ∧ encode i = withCrc body := by
  unfold decodeRequestBody at h
  split at h
  case h_1 a c =>
    split_ifs at h with h0 h2
    · cases h; exact ⟨rfl, by rw [h0]; rfl⟩
    · cases h; exact ⟨rfl, by rw [h2]; rfl⟩
  case h_2 a c x y =>
    split_ifs at h with h5 h8 hx
    · cases h; exact ⟨rfl, by rw [h5]; rfl⟩
    · rw [h8, hx]; exact decodeSubIndex_ok h
  case h_3 a c l p0 p1 p2 p3 p4 p5 =>
    split_ifs at h with h1
    cases h; exact ⟨rfl, by rw [h1]; rfl⟩
  case h_4 => cases h

theorem decodeResponseBody_ok {body : List Byte} {i : Instr}
    (h : decodeResponseBody body = .ok i) : portOf i = .response ∧ encode i = withCrc body := by
  unfold decodeResponseBody at h
  split at h <;> cases h <;> exact ⟨rfl, rfl⟩

theorem wordBytes_wordOfLanes (b0 b1 b2 b3 : Byte) :
    wordBytes (wordOfLanes b0 b1 b2 b3) = [b0, b1, b2, b3] := by
  obtain ⟨h0, h1, h2, h3⟩ := wordLane_wordOfLanes b0 b1 b2 b3
  rw [wordBytes, h0, h1, h2, h3]

/-! What the bytes at each port must be for `decode` to answer. -/

theorem decode_command_ok {bs : List Byte} {i : Instr} (h : decode .command bs = .ok i) :
    ∃ w, bs = wordBytes w ∧ i = decodeCommand w := by
  simp only [decode] at h
  split at h
  · injection h with h
    exact ⟨_, (wordBytes_wordOfLanes ..).symm, h.symm⟩
  · cases h

theorem decode_request_ok {bs : List Byte} {i : Instr} (h : decode .request bs = .ok i) :
    ∃ body, bs = withCrc body ∧ decodeRequestBody body = .ok i := by
  by_cases hc : crcMatches bs = true
  · obtain ⟨body, rfl⟩ := (crcMatches_iff bs).1 hc
    exact ⟨body, rfl, decode_request_withCrc body ▸ h⟩
  · simp [decode, hc] at h

theorem decode_response_ok {bs : List Byte} {i : Instr} (h : decode .response bs = .ok i) :
    ∃ body, bs = withCrc body ∧ decodeResponseBody body = .ok i := by
  by_cases hc : crcMatches bs = true
  · obtain ⟨body, rfl⟩ := (crcMatches_iff bs).1 hc
    exact ⟨body, rfl, decode_response_withCrc body ▸ h⟩
  · simp [decode, hc] at h

/-- Settles O3: each decoder answers only what its bytes encode. -/
theorem encodeAfterDecode : Obligations.EncodeAfterDecode := by
  intro p bs i h
  cases p with
  | command =>
    obtain ⟨w, rfl, rfl⟩ := decode_command_ok h
    have hport := portOf_decodeCommand w
    refine ⟨hport, wellFormed_decodeCommand w, ?_⟩
    rw [encode_of_command hport, encodeCommand_decodeCommand]
  | request =>
    obtain ⟨body, rfl, hb⟩ := decode_request_ok h
    obtain ⟨hport, henc⟩ := decodeRequestBody_ok hb
    exact ⟨hport, wellFormed_of_wire (by simp [hport]), henc⟩
  | response =>
    obtain ⟨body, rfl, hb⟩ := decode_response_ok h
    obtain ⟨hport, henc⟩ := decodeResponseBody_ok hb
    exact ⟨hport, wellFormed_of_wire (by simp [hport]), henc⟩

end Sys2Proof
end

section
/-! SUPPORT. The rows of the table as steps: what a serializer command leaves in TX, what a request row sends, what a
response row delivers (spec/30_encoding.md R87 to R91; log entry 12). -/

namespace Sys2Proof.Machine

theorem txFrame_emit {body : List Byte} (h : RequestBody body) (s : State) :
    txFrame (emit body s) = withCrc body :=
  txFrame_of_txHolds (txHolds_emit h s)

/-- An instruction that emits a request's body leaves its frame in TX. -/
theorem txFrame_of_exec_emit {i : Instr} {body : List Byte} {s t : State}
    (he : exec i s = .next (emit body s)) (hb : RequestBody body) (h : exec i s = .next t) :
    txFrame t = withCrc body := by
  rw [he] at h
  injection h with h
  rw [← h, txFrame_emit hb]

/-- Settles O16: each serializer command emits the body of its row. -/
theorem serializerBuildsTheTableRows : Obligations.SerializerBuildsTheTableRows := by
  intro s t
  refine ⟨txFrame_of_exec_emit rfl (.probe _), txFrame_of_exec_emit rfl (.openSession ..),
    txFrame_of_exec_emit rfl (.closeSession _), fun h => ?_, txFrame_of_exec_emit rfl (.energy ..)⟩
  have hf : txFrame t = withCrc [s.devaddr, 0x08, 0x16, s.subidx] :=
    txFrame_of_exec_emit rfl (.auxiliary ..) h
  refine ⟨?_, ?_, ?_, ?_, ?_, ?_, ?_⟩ <;> (intro hsub; rw [hf, hsub]; rfl)

theorem sendsFrame_of_exec {i : Instr} {f : List Byte}
    (he : ∀ s, exec i s = .next (sendFrame f s)) : SendsFrame i f := by
  intro s ws
  rw [he]
  refine ⟨fun h => ?_, fun h => ?_⟩
  · have hn : nextWrite s = .ok := by rw [nextWrite, h]; rfl
    simp only [sendFrame, hn, h, List.tail_cons]
  · have hn : nextWrite s = .err := by rw [nextWrite, h]; rfl
    simp only [sendFrame, hn, h, List.tail_cons, exchangeFailed, complete]

/-- Settles O34: each request row is the SEND block for its frame. -/
theorem requestRowsAreSent : Obligations.RequestRowsAreSent := by
  refine ⟨?_, ?_, ?_, ?_, ?_, ?_, ?_, ?_, ?_, ?_, ?_⟩ <;> intros <;>
    exact sendsFrame_of_exec fun _ => rfl

theorem receivesFrame_of_exec {i : Instr} {f : List Byte}
    (he : ∀ s, exec i s = .next (deliver f s)) : ReceivesFrame i f := fun s =>
  ⟨memWriteBytes s.rx 0 f, he s, holdsFrame_memWriteBytes f s.rx⟩

/-- Settles O35: each response row delivers its frame to RX. -/
theorem responseRowsAreReceived : Obligations.ResponseRowsAreReceived := by
  refine ⟨?_, ?_, ?_, ?_, ?_⟩ <;> intros <;> exact receivesFrame_of_exec fun _ => rfl

end Sys2Proof.Machine
end

section
/-! SUPPORT. Commands from the host's write to their end: acceptance, the controller's step, and the completion of every
command in progress (spec/60_exceptions.md R220, R223, R224; spec/43_exchange.md R198). -/

namespace Sys2Proof.Machine

/-- The host's turn at a CMD write while BUSY = 0: the word is accepted. -/
theorem step_acceptCommand {w : Word} {more : List HostInstr} {rest : List Move} {s : State}
    (hb : s.busy = false) (ht : HostTurn (.write (busAddress 0x000) 32 w) more rest s) :
    step s = .next (accept w (afterTurn more rest s)) :=
  step_hostWrite_idle hb ht (by decide) (by decide)

/-- The controller's scheduled move, where it has a step enabled. -/
theorem step_controller {rest : List Move} {s : State} (h : s.schedule = .controller :: rest)
    (he : controllerEnabled s = true) : step s = exec (currentInstr s) (stepStart s) := by
  rw [step_cons h]
  exact if_pos he

/-- Settles O4: legality by the fields of the word; an illegal word is accepted and then performed as `illegal`. -/
theorem legalityOfCommandWords : Obligations.LegalityOfCommandWords := by
  intro w
  refine ⟨((decodeCommand_ne_illegal_iff w).trans (legalWord_iff w)).symm, ?_⟩
  intro s more rest hill hb hp hs
  have hw : step s = .next (accept w (afterTurn more (.controller :: rest) s)) :=
    step_acceptCommand hb ⟨hp, .inl hs⟩
  have hc := step_controller (s := accept w (afterTurn more (.controller :: rest) s)) rfl rfl
  rw [show currentInstr (accept w _) = .illegal w from hill] at hc
  rw [run_next hw, run_next hc]
  rfl

/-- `t` is the end of the command in progress in `s` (spec/60_exceptions.md R224), with no move of the host. -/
structure CommandEnded (s t : State) : Prop where
  busy : t.busy = false
  done : t.done = true
  xstate : t.xstate = .idle
  pending : t.pending = s.pending
  cmderr : t.cmderr = s.cmderr
  schedule : t.schedule = s.schedule
  program : t.program = s.program

/-- With nothing scheduled, the command in progress ends within `n` steps. -/
def EndsWithin (n : Nat) (s : State) : Prop :=
  ∃ (m : Nat) (t : State), 1 ≤ m ∧ m ≤ n ∧ Host.Core.run core m s = .next t ∧ CommandEnded s t

/-- `t` is a later state of the command in progress in `s`, with no move of the host. -/
structure StillInProgress (s t : State) : Prop where
  busy : t.busy = true
  pending : t.pending = s.pending
  cmderr : t.cmderr = s.cmderr
  schedule : t.schedule = []
  program : t.program = s.program

theorem EndsWithin.mono {m n : Nat} {s : State} (h : EndsWithin m s) (hmn : m ≤ n) :
    EndsWithin n s := by
  obtain ⟨k, t, h1, hk, hrun, hend⟩ := h
  exact ⟨k, t, h1, hk.trans hmn, hrun, hend⟩

theorem endsWithin_one {s t : State} (h : step s = .next t) (he : CommandEnded s t) :
    EndsWithin 1 s :=
  ⟨1, t, le_rfl, le_rfl, run_next h, he⟩

theorem EndsWithin.of_step {n : Nat} {s t : State} (hs : s.schedule = []) (h : step s = .next t)
    (hp : StillInProgress s t) (ht : EndsWithin n t) : EndsWithin (n + 1) s := by
  obtain ⟨m, u, _, hm, hrun, hend⟩ := ht
  refine ⟨m + 1, u, by omega, by omega, (run_next h).trans hrun, ?_⟩
  exact { hend with
    pending := hend.pending.trans hp.pending
    cmderr := hend.cmderr.trans hp.cmderr
    schedule := by rw [hend.schedule, hp.schedule, hs]
    program := hend.program.trans hp.program }

theorem decodeRx_ended (n : Nat) (v : Values) (s : State) : CommandEnded s (decodeRx n v s) := by
  rcases decodeRx_cases n v s with ⟨_, e⟩ | ⟨_, _, e⟩ | ⟨_, _, e⟩ <;> rw [e] <;> constructor <;> rfl

theorem waitAndRead_ended (s : State) : CommandEnded s (waitAndRead s) := by
  rcases waitAndRead_cases s with ⟨_, e⟩ | ⟨_, _, e⟩ | ⟨_, _, _, _, _, e⟩ <;> rw [e] <;>
    constructor <;> rfl

/-- Every command but XCHG ends in its one step. -/
theorem exec_ended {i : Instr} {s t : State} (hp : portOf i = .command) (hx : i ≠ .xchg)
    (h : exec i s = .next t) : CommandEnded s t := by
  rcases exec_command_cases hp h with
    ⟨_, rfl⟩ | ⟨_, _, rfl⟩ | ⟨_, _, _, rfl⟩ | ⟨n, v, _, rfl⟩ | ⟨_, _, rfl⟩ | ⟨hi, _⟩
  case inr.inr.inr.inl => exact decodeRx_ended n v s
  case inr.inr.inr.inr.inr => exact absurd hi hx
  all_goals constructor <;> rfl

/-- `CommandEnded` looks at nothing that the start of a step changes. -/
theorem CommandEnded.of_stepStart {s t : State} (hs : s.schedule = [])
    (h : CommandEnded (stepStart s) t) : CommandEnded s t :=
  { h with schedule := by rw [h.schedule, stepStart_schedule, hs]; rfl }

theorem endsWithin_of_ne_xchg {s : State} (hs : s.schedule = []) (he : controllerEnabled s = true)
    (hx : currentInstr s ≠ .xchg) : EndsWithin 1 s := by
  obtain ⟨t, ht⟩ := exec_next (currentInstr s) (stepStart s)
  have hend := exec_ended (portOf_decodeCommand s.pending) hx ht
  exact endsWithin_one ((step_enabled hs he).trans ht) (hend.of_stepStart hs)

/-- The step of an XCHG in progress. -/
theorem step_xchg {s : State} (hs : s.schedule = []) (he : controllerEnabled s = true)
    (hx : currentInstr s = .xchg) : step s = execXchg (stepStart s) := by
  rw [step_enabled hs he, hx]
  rfl

theorem controllerEnabled_of_ne_turn {s : State} (hb : s.busy = true) (hne : s.xstate ≠ .turn) :
    controllerEnabled s = true := by
  simp [controllerEnabled, hb, hne]

/-! The end of an exchange, from its last block back to its first. -/

section
variable {s : State} (hb : s.busy = true) (hs : s.schedule = [])
include hb hs

theorem endsWithin_wait (hw : s.xstate = .wait) : EndsWithin 1 s := by
  have he : controllerEnabled s = true := controllerEnabled_of_ne_turn hb (by simp [hw])
  by_cases hx : currentInstr s = .xchg
  · have hst : step s = .next (waitAndRead (stepStart s)) := by
      rw [step_xchg hs he hx, execXchg, stepStart_xstate, hw]
    exact endsWithin_one hst ((waitAndRead_ended (stepStart s)).of_stepStart hs)
  · exact endsWithin_of_ne_xchg hs he hx

theorem endsWithin_turn_enabled (ht : s.xstate = .turn) (he : controllerEnabled s = true) :
    EndsWithin 2 s := by
  by_cases hx : currentInstr s = .xchg
  · have hst : step s = .next { stepStart s with xstate := .wait, timer := 0 } := by
      rw [step_xchg hs he hx, execXchg, stepStart_xstate, ht]
    have hsched : (stepStart s).schedule = [] := by simp [hs]
    exact .of_step hs hst ⟨hb, rfl, rfl, hsched, rfl⟩ (endsWithin_wait hb hsched rfl)
  · exact (endsWithin_of_ne_xchg hs he hx).mono (by decide)

/-- In TURN the default move of the timer ends the delay (spec/43_exchange.md R198, log entry 7). -/
theorem endsWithin_turn (ht : s.xstate = .turn) : EndsWithin 3 s := by
  by_cases he : controllerEnabled s = true
  · exact (endsWithin_turn_enabled hb hs ht he).mono (by decide)
  · have hst := step_disabled hs (by simpa using he) hb
    have hsched : (timePasses Config.turnMs (stepStart s)).schedule = [] := by simp [hs]
    have hen : controllerEnabled (timePasses Config.turnMs (stepStart s)) = true := by
      simp [controllerEnabled, timePasses, ht, hb]
    exact .of_step hs hst ⟨by simpa using hb, by simp, by simp, hsched, by simp⟩
      (endsWithin_turn_enabled (by simpa using hb) hsched (by simpa using ht) hen)

theorem endsWithin_send (hsend : s.xstate = .send) : EndsWithin 4 s := by
  have he : controllerEnabled s = true := controllerEnabled_of_ne_turn hb (by simp [hsend])
  by_cases hx : currentInstr s = .xchg
  · have hst : step s = .next (sendFrame (txFrame (stepStart s)) (stepStart s)) := by
      rw [step_xchg hs he hx, execXchg, stepStart_xstate, hsend]
    have hsched : (stepStart s).schedule = [] := by simp [hs]
    rcases sendFrame_cases (txFrame (stepStart s)) (stepStart s) with ⟨_, e⟩ | ⟨_, e⟩ <;>
      rw [e] at hst
    · exact .of_step hs hst ⟨hb, rfl, rfl, hsched, rfl⟩ (endsWithin_turn hb hsched rfl)
    · have hone := endsWithin_one hst (.of_stepStart hs ⟨rfl, rfl, rfl, rfl, rfl, rfl, rfl⟩)
      exact hone.mono (by decide)
  · exact (endsWithin_of_ne_xchg hs he hx).mono (by decide)

theorem endsWithin_start (hstart : s.xstate = .idle ∨ s.xstate = .exec) : EndsWithin 5 s := by
  have he : controllerEnabled s = true :=
    controllerEnabled_of_ne_turn hb (by rcases hstart with h | h <;> simp [h])
  by_cases hx : currentInstr s = .xchg
  · have hst : step s = .next (startExchange (stepStart s)) := by
      rw [step_xchg hs he hx, execXchg, stepStart_xstate]
      rcases hstart with h | h <;> rw [h]
    have hsched : (stepStart s).schedule = [] := by simp [hs]
    rcases startExchange_cases (stepStart s) with ⟨_, e⟩ | ⟨_, e⟩ <;> rw [e] at hst
    · have hone := endsWithin_one hst (.of_stepStart hs ⟨rfl, rfl, rfl, rfl, rfl, rfl, rfl⟩)
      exact hone.mono (by decide)
    · exact .of_step hs hst ⟨hb, rfl, rfl, hsched, rfl⟩ (endsWithin_send hb hsched rfl)
  · exact (endsWithin_of_ne_xchg hs he hx).mono (by decide)

/-- Every command in progress ends within five steps, from whatever controller state. -/
theorem endsWithin_five : EndsWithin 5 s := by
  cases hx : s.xstate with
  | idle => exact endsWithin_start hb hs (.inl hx)
  | exec => exact endsWithin_start hb hs (.inr hx)
  | send => exact (endsWithin_send hb hs hx).mono (by decide)
  | turn => exact (endsWithin_turn hb hs hx).mono (by decide)
  | wait => exact (endsWithin_wait hb hs hx).mono (by decide)

end

/-- Settles O33: the write is accepted, the command ends within five steps, and POLL then reads DONE = 1. -/
theorem doRunsACommandToItsEnd : Obligations.DoRunsACommandToItsEnd := by
  refine ⟨fun s i more hb hs _ hp => ?_, fun s more rest ht => ⟨fun hd => ?_, fun hd => ?_⟩⟩
  · have hw := step_acceptCommand (w := encodeCommand i) (more := .poll :: more) (rest := []) hb
      ⟨hp, .inr ⟨hs, rfl, hb⟩⟩
    obtain ⟨m, t, _, hm, hrun, hend⟩ := endsWithin_five
      (s := accept (encodeCommand i) (afterTurn (.poll :: more) [] s)) rfl rfl
    have hpoll := step_poll (s := t) (more := more) (rest := [])
      ⟨hend.program, .inr ⟨hend.schedule, rfl, hend.busy⟩⟩
    rw [if_pos hend.done] at hpoll
    refine ⟨m + 1 + 1, observe .status (afterTurn more [] t), by omega, ?_, rfl, hend.done, hend.busy,
      hend.xstate, hend.pending, hend.cmderr, ?_⟩
    · rw [run_next hw, run_add 1 hrun, run_next hpoll]
      rfl
    · rintro rfl
      simp [State.runEnded, observe, afterTurn, hend.busy]
  · rw [step_poll ht, if_pos hd]
  · rw [step_poll ht, if_neg (by simp [hd])]

end Sys2Proof.Machine
end

section
/-! SUPPORT. LOADRX (spec/30_encoding.md R96): its writes to RXDATA word by word, then RXLEN. -/

namespace Sys2Proof.Machine

/-- The word of the next write of LOADRX: the next four bytes, 0 past the last. -/
def nextRxWord (bs : List Byte) : Word :=
  wordOfLanes (bs.getD 0 0) (bs.getD 1 0) (bs.getD 2 0) (bs.getD 3 0)

theorem loadRxWords_of_ne_nil (k : Nat) {bs : List Byte} (h : bs ≠ []) :
    loadRxWords k bs = wr (.rxdata k) (nextRxWord bs) :: loadRxWords (k + 1) (bs.drop 4) := by
  match bs with
  | [_] | [_, _] | [_, _, _] | _ :: _ :: _ :: _ :: _ => rfl

theorem wordBytes_nextRxWord {bs : List Byte} {j : Nat} (hj : j < 4) (hlen : j < bs.length) :
    (wordBytes (nextRxWord bs))[j]? = bs[j]? := by
  have hlane := extractLsb'_wordOfLanes (fun i => bs.getD i 0) 0 hj
  simp only [Nat.zero_add] at hlane
  rw [wordBytes_getElem? _ hj, List.getElem?_eq_getElem hlen]
  exact congrArg some (hlane.trans (List.getD_eq_getElem _ _ hlen))

/-- The host's turn at a write of RXDATAk while BUSY = 0 (spec/10_state.md R41). -/
theorem step_writeRxdata {s : State} {k : Nat} {w : Word} {more : List HostInstr}
    (hb : s.busy = false) (hs : s.schedule = []) (hk : k < 64)
    (hp : s.program = wr (.rxdata k) w :: more) :
    step s = .next
      { afterTurn more [] s with rx := writeRxLanes s.rx (4 * k) (wordBytes w) } := by
  have ht : HostTurn (.write (busAddress (0x100 + 4 * k)) 32 w) more [] s :=
    ⟨hp, .inr ⟨hs, rfl, hb⟩⟩
  rw [step_hostWrite_idle hb ht (by omega) (by omega), regAt_rxdata]
  rfl

/-- Buffer `m` is `m₀` after the writes of LOADRX from word `k` on: the bytes stand in their cells, and the cells before
them are as they were. -/
structure LoadedFrom (k : Nat) (bs : List Byte) (m m₀ : Memory) : Prop where
  bytes : ∀ j, j < bs.length → memRead m (4 * k + j) = bs[j]?
  before : ∀ i, i < 4 * k → memRead m i = memRead m₀ i

/-- The first word, then the others. -/
theorem LoadedFrom.cons {k : Nat} {bs : List Byte} {m m₀ : Memory}
    (hcap : ∀ j, j < bs.length → 4 * k + j < Config.rxCap)
    (h : LoadedFrom (k + 1) (bs.drop 4) m (writeRxLanes m₀ (4 * k) (wordBytes (nextRxWord bs)))) :
    LoadedFrom k bs m m₀ where
  bytes j hj := by
    by_cases h4 : j < 4
    · have hcell := hcap j hj
      rw [h.before _ (by omega), memRead_writeRxLanes,
        if_pos ⟨by omega, by simpa [wordBytes] using h4, hcell⟩, Nat.add_sub_cancel_left,
        wordBytes_nextRxWord h4 hj]
    · obtain ⟨l, rfl⟩ : ∃ l, j = 4 + l := ⟨j - 4, by omega⟩
      have hl := h.bytes l (by rw [List.length_drop]; omega)
      rwa [List.getElem?_drop, show 4 * (k + 1) + l = 4 * k + (4 + l) by omega] at hl
  before i hi := by
    rw [h.before i (by omega), memRead_writeRxLanes, if_neg (by omega)]

/-- The RXDATA writes of LOADRX, one step each. -/
theorem run_loadRxWords {s : State} {k : Nat} {bs : List Byte} {more : List HostInstr}
    (hb : s.busy = false) (hs : s.schedule = [])
    (hcap : ∀ j, j < bs.length → 4 * k + j < Config.rxCap)
    (hp : s.program = loadRxWords k bs ++ more) :
    ∃ m n, Host.Core.run core (loadRxWords k bs).length s =
        .next { afterTurn more [] s with rx := m, draws := n } ∧
      LoadedFrom k bs m s.rx := by
  by_cases hnil : bs = []
  · subst hnil
    refine ⟨s.rx, s.draws, ?_, ⟨nofun, fun _ _ => rfl⟩⟩
    have hself : s = { afterTurn more [] s with rx := s.rx, draws := s.draws } := by
      rw [afterTurn, ← hs, ← show s.program = more from hp]
    exact congrArg Host.Outcome.next hself
  · rw [loadRxWords_of_ne_nil k hnil] at hp ⊢
    have hlen : 0 < bs.length := List.length_pos_iff.2 hnil
    have hk : k < 64 := by
      have := hcap 0 hlen
      have := rxCap_le
      omega
    have hstep := step_writeRxdata hb hs hk hp
    obtain ⟨m, n, hrun, hload⟩ := run_loadRxWords (k := k + 1) (bs := bs.drop 4) (more := more)
      (s := { afterTurn (loadRxWords (k + 1) (bs.drop 4) ++ more) [] s with
        rx := writeRxLanes s.rx (4 * k) (wordBytes (nextRxWord bs)) })
      hb rfl
      (fun j hj => by
        rw [List.length_drop] at hj
        have := hcap (4 + j) (by omega)
        omega)
      rfl
    exact ⟨m, n, (run_next hstep).trans hrun, hload.cons hcap⟩
termination_by bs.length
decreasing_by rw [List.length_drop]; omega

/-- The host's turn at a write of RXLEN while BUSY = 0, of a length that RX holds (spec/10_state.md R38). -/
theorem step_writeRxlen {s : State} {n : Nat} {more : List HostInstr} (hb : s.busy = false)
    (hs : s.schedule = []) (hn : n ≤ Config.rxCap)
    (hp : s.program = wr .rxlen (BitVec.ofNat 32 n) :: more) :
    step s = .next { afterTurn more [] s with rxlen := BitVec.ofNat 8 n } := by
  have ht : HostTurn (.write (busAddress 0x028) 32 (BitVec.ofNat 32 n)) more [] s :=
    ⟨hp, .inr ⟨hs, rfl, hb⟩⟩
  have hlane : wordLane (BitVec.ofNat 32 n) 0 = BitVec.ofNat 8 n := by
    apply BitVec.eq_of_toNat_eq
    simp [wordLane]
  have hfit : (wordLane (BitVec.ofNat 32 n) 0).toNat ≤ Config.rxCap := by
    rw [hlane, BitVec.toNat_ofNat]
    exact (Nat.mod_le _ _).trans hn
  rw [step_hostWrite_idle hb ht (by decide) (by decide), ← hlane]
  exact congrArg Host.Outcome.next (if_pos hfit)

/-- Settles O47: the words fill RX from cell 0, and the last write sets RXLEN. -/
theorem loadRxLoadsAResponse : Obligations.LoadRxLoadsAResponse := by
  intro s bs more hb hs _ hcap hp
  rw [loadRx, List.append_assoc] at hp
  obtain ⟨m, n, hrun, hload⟩ := run_loadRxWords hb hs (fun j hj => by omega) hp
  have hstep := step_writeRxlen
    (s := { afterTurn (wr .rxlen (BitVec.ofNat 32 bs.length) :: more) [] s with rx := m, draws := n })
    hb rfl hcap rfl
  have hall := (run_add 1 hrun).trans (run_next hstep)
  rw [loadRx, List.length_append]
  refine ⟨_, hall, rfl, ⟨?_, fun i hi => ?_⟩, hb, rfl, rfl, rfl, ⟨rfl, rfl, rfl, rfl⟩,
    SameParameters.refl s⟩
  · have hle := rxCap_le
    simp only [BitVec.toNat_ofNat]
    omega
  · have hbyte : memRead m i = bs[i]? := by simpa using hload.bytes i hi
    exact hbyte

end Sys2Proof.Machine
end

section
/-! SUPPORT. The CRC unit: the functions of R110 and R111, the zero residue, and its two commands (spec/40_crc.md). -/

namespace Sys2Proof.Machine

/-! The functions (R110, R111). -/

theorem crcRounds_eq_iterate (n : Nat) (r : Half) : crcRounds n r = crcRound^[n] r := by
  induction n generalizing r with
  | zero => rfl
  | succ n ih => exact ih (crcRound r)

/-- Settles O6: the rounds are the iterates of one round, and `crc16` is a fold by definition. -/
theorem crcIsTheBitSerialFold : Obligations.CrcIsTheBitSerialFold :=
  ⟨fun r b => crcRounds_eq_iterate 8 (r ^^^ b.zeroExtend 16), fun _ => rfl⟩

theorem crc16_append (s t : List Byte) : crc16 (s ++ t) = t.foldl crcStep (crc16 s) :=
  List.foldl_append

/-! The zero residue (R117 (c)). -/

/-- The round of an even value is a shift. -/
theorem crcRound_shiftLeft_one {x : Half} (h : x.toNat < 2 ^ 15) : crcRound (x <<< 1) = x := by
  have hbit : (x <<< 1).getLsbD 0 = false := by simp
  rw [crcRound, hbit, if_neg Bool.false_ne_true]
  apply BitVec.eq_of_toNat_eq
  rw [BitVec.toNat_ushiftRight, BitVec.toNat_shiftLeft]
  omega

/-- As long as the bits that leave are 0, the rounds are shifts. -/
theorem crcRounds_shiftLeft {n : Nat} {x : Half} (h : x.toNat * 2 ^ n < 2 ^ 16) :
    crcRounds n (x <<< n) = x := by
  induction n with
  | zero => simp [crcRounds]
  | succ n ih =>
    have hlt : x.toNat * 2 ^ n < 2 ^ 15 := by rw [Nat.pow_succ, ← Nat.mul_assoc] at h; omega
    have hval : (x <<< n).toNat < 2 ^ 15 := by
      rw [BitVec.toNat_shiftLeft, Nat.shiftLeft_eq]
      exact (Nat.mod_le _ _).trans_lt hlt
    rw [BitVec.shiftLeft_add, crcRounds, crcRound_shiftLeft_one hval, ih (by omega)]

/-- Feeding the register its own low byte clears that byte, so eight shifts leave the high byte. -/
theorem crcStep_lowByte (c : Half) :
    crcStep c (c.extractLsb' 0 8) = (c.extractLsb' 8 8).zeroExtend 16 := by
  have hclear : c ^^^ (c.extractLsb' 0 8).zeroExtend 16 = (c.extractLsb' 8 8).zeroExtend 16 <<< 8 := by
    ext i hi
    interval_cases i <;> simp
  rw [crcStep, hclear]
  have hlt := (c.extractLsb' 8 8).isLt
  exact crcRounds_shiftLeft (by rw [BitVec.toNat_setWidth]; omega)

/-- Feeding a register below 0x100 its own byte leaves 0. -/
theorem crcStep_self (b : Byte) : crcStep (b.zeroExtend 16) b = 0 := by
  rw [crcStep, BitVec.xor_self]
  rfl

/-- Settles O9: the low byte of the CRC shifts its high byte down, and the high byte then clears the register. -/
theorem crcOfAFrameIsZero : Obligations.CrcOfAFrameIsZero := by
  intro body
  calc crc16 (withCrc body)
      = crcStep (crcStep (crc16 body) ((crc16 body).extractLsb' 0 8))
          ((crc16 body).extractLsb' 8 8) := crc16_append body (crcBytes (crc16 body))
    _ = 0 := by rw [crcStep_lowByte, crcStep_self]

/-! The words of opcodes 0x01 and 0x02 (R112, R113). -/

/-- What is performed for an illegal word (spec/60_exceptions.md R223). -/
theorem exec_of_decodeCommand_illegal {w : Word} (h : decodeCommand w = .illegal w) (s : State) :
    exec (decodeCommand w) s = .next
      { s with result := .illegalOp, busy := false, done := true, xstate := .idle } := by
  rw [h]
  rfl

/-- An opcode that takes no ARG has one legal word (spec/30_encoding.md R82). -/
theorem onlyWord_commandWord {op : Byte} {i : Instr} (h2 : op ≠ 0x02)
    (hd : decodeCommand (commandWord op 0) = i) : OnlyWord (commandWord op 0) i := by
  refine ⟨hd, fun w hw hne => ?_⟩
  have hop : w.extractLsb' 0 8 = op := hw.trans (commandWord_fields op 0).1
  have hill : decodeCommand w = .illegal w := by
    by_contra hlegal
    obtain ⟨-, hrsv, harg⟩ := (legalWord_iff w).1 ((decodeCommand_ne_illegal_iff w).1 hlegal)
    have harg0 := harg.resolve_right (hop ▸ h2)
    exact hne (commandWord_zero_eq (congrArg BitVec.toNat hop) harg0 hrsv).symm
  exact ⟨hill, exec_of_decodeCommand_illegal hill⟩

theorem exec_crcInit (s : State) :
    exec .crcInit s = .next (complete .ok { s with crc := Config.crcInit }) := rfl

theorem exec_crcByte (b : Byte) (s : State) :
    exec (.crcByte b) s = .next (complete .ok { s with crc := crcStep s.crc b }) := rfl

/-- Settles O7: opcode 0x01 takes no ARG. -/
theorem crcInitLoadsTheInitialValue : Obligations.CrcInitLoadsTheInitialValue :=
  ⟨onlyWord_commandWord (op := 0x01) (by decide) rfl, exec_crcInit⟩

/-- The word of `CRC.BYTE b` as R113 writes it. -/
theorem commandWord_crcByte (b : Byte) : commandWord 0x02 b = (b.zeroExtend 32 <<< 8) + 0x02 := by
  have hdisjoint : (b.zeroExtend 32 <<< 8) &&& (0x02 : Word) = 0 := by
    ext i hi
    interval_cases i <;> simp
  rw [BitVec.add_eq_or_of_and_eq_zero _ _ hdisjoint, BitVec.or_comm]
  rfl

theorem decodeCommand_of_rsv_ne_zero {w : Word} (h : w.extractLsb' 16 16 ≠ 0) :
    decodeCommand w = .illegal w := by
  rw [decodeCommand, if_pos h]

/-- Settles O8: R113's word is the encoding of `CRC.BYTE b`, and RSV not 0 makes any word illegal. -/
theorem crcByteFeedsOneByte : Obligations.CrcByteFeedsOneByte := by
  refine ⟨fun b => ?_, fun w _ hrsv => ?_, exec_crcByte⟩
  · rw [← commandWord_crcByte, decodeCommand_crcByte]
  · have hill := decodeCommand_of_rsv_ne_zero hrsv
    exact ⟨hill, exec_of_decodeCommand_illegal hill⟩

end Sys2Proof.Machine
end

section
/-! SUPPORT. CRC.SEQ (spec/30_encoding.md R96): each of its commands takes the CRC register one step on, and leaves the
buffers, the values and the parameters alone (spec/40_crc.md R114). -/

namespace Sys2Proof.Machine

/-- `s` after commands of the CRC unit that left `c` in CRC, the host at `more`. What `p`, `r` and `n` stand for is
bookkeeping: the last command word, what POLL has read, the draw counter. -/
def afterCrc (c : Half) (more : List HostInstr) (p : Word) (r : List Word) (n : Nat) (s : State) :
    State :=
  { s with
    crc := c, result := .ok, busy := false, done := true, dvalid := false, cmderr := false
    xstate := .idle, program := more, schedule := [], pending := p, hostReads := r, draws := n }

/-- `DO` of a command that ends in one step and maps CRC by `f`: the write, the controller's step, the POLL. -/
theorem run_doCommand_crc {i : Instr} {f : Half → Half} {s : State} {more : List HostInstr}
    (hi : decodeCommand (encodeCommand i) = i)
    (he : ∀ u : State, exec i u = .next (complete .ok { u with crc := f u.crc }))
    (hb : s.busy = false) (hs : s.schedule = []) (hp : s.program = doCommand i ++ more) :
    ∃ p r n, Host.Core.run core 3 s = .next (afterCrc (f s.crc) more p r n s) := by
  have hwrite := step_acceptCommand (w := encodeCommand i) (more := .poll :: more) (rest := []) hb
    ⟨hp, .inr ⟨hs, rfl, hb⟩⟩
  have hperform : step (accept (encodeCommand i) (afterTurn (.poll :: more) [] s)) = .next
      (afterCrc (f s.crc) (.poll :: more) (encodeCommand i) s.hostReads (s.draws + 2) s) := by
    rw [step_enabled rfl rfl, currentInstr, accept_pending, hi, he]
    rfl
  have hpoll := step_poll (more := more) (rest := [])
    (s := afterCrc (f s.crc) (.poll :: more) (encodeCommand i) s.hostReads (s.draws + 2) s)
    ⟨rfl, .inr ⟨rfl, rfl, rfl⟩⟩
  rw [run_next hwrite, run_next hperform, run_next hpoll]
  exact ⟨_, _, _, rfl⟩

/-- CRC.SEQ after its `CRC.INIT`: a `DO CRC.BYTE` for each byte. -/
def crcBytesProgram (bs : List Byte) : List HostInstr := bs.flatMap fun b => doCommand (.crcByte b)

theorem crcSeq_append (bs : List Byte) (more : List HostInstr) :
    crcSeq bs ++ more = doCommand .crcInit ++ (crcBytesProgram bs ++ more) := rfl

theorem crcBytesProgram_cons_append (b : Byte) (bs : List Byte) (more : List HostInstr) :
    crcBytesProgram (b :: bs) ++ more = doCommand (.crcByte b) ++ (crcBytesProgram bs ++ more) := rfl

/-- The `CRC.BYTE`s of CRC.SEQ fold their bytes into CRC. -/
theorem run_crcBytes (bs : List Byte) (more : List HostInstr) (c : Half) (p : Word) (r : List Word)
    (n : Nat) (s : State) :
    ∃ p' r' n', Host.Core.run core (3 * bs.length)
        (afterCrc c (crcBytesProgram bs ++ more) p r n s) =
      .next (afterCrc (bs.foldl crcStep c) more p' r' n' s) := by
  induction bs generalizing c p r n with
  | nil => exact ⟨p, r, n, rfl⟩
  | cons b bs ih =>
    obtain ⟨p₁, r₁, n₁, hfirst⟩ := run_doCommand_crc (i := .crcByte b) (f := (crcStep · b))
      (more := crcBytesProgram bs ++ more)
      (s := afterCrc c (crcBytesProgram (b :: bs) ++ more) p r n s)
      (decodeCommand_crcByte b) (exec_crcByte b) rfl rfl
      (crcBytesProgram_cons_append b bs more)
    obtain ⟨p₂, r₂, n₂, hrest⟩ := ih (crcStep c b) p₁ r₁ n₁
    refine ⟨p₂, r₂, n₂, ?_⟩
    rw [List.length_cons, Nat.mul_succ, Nat.add_comm]
    exact (run_add _ hfirst).trans hrest

/-- Settles O10: `CRC.INIT` starts the fold, and each `CRC.BYTE` goes on with it. -/
theorem crcSeqComputesTheCrc : Obligations.CrcSeqComputesTheCrc := by
  intro s bs more hb hs hp
  rw [crcSeq_append] at hp
  obtain ⟨p, r, n, hinit⟩ := run_doCommand_crc (i := .crcInit) (f := fun _ => Config.crcInit) rfl
    exec_crcInit hb hs hp
  obtain ⟨p', r', n', hbytes⟩ := run_crcBytes bs more Config.crcInit p r n s
  refine ⟨afterCrc (crc16 bs) more p' r' n' s, ?_, rfl, rfl, rfl, rfl, rfl, rfl, rfl, rfl, rfl,
    ⟨rfl, rfl, rfl, rfl⟩, SameParameters.refl s⟩
  rw [Nat.mul_succ, Nat.add_comm]
  exact (run_add _ hinit).trans hbytes

end Sys2Proof.Machine
end

section
/-! SUPPORT. The serializer's commands: each emits the body of its rule, at the one word of its opcode
(spec/41_serializer.md R130 to R135). -/

namespace Sys2Proof.Machine

/-- R130: an instruction that performs `emit` of a body of fixed length leaves that body's frame, and nothing else. -/
theorem emitsBody_of_exec {i : Instr} {n : Byte} {body : State → List Byte}
    (he : ∀ s, exec i s = .next (emit (body s) s)) (hn : ∀ s, n.toNat = (body s).length + 2) :
    EmitsBody i n body := by
  intro s
  have hlen : BitVec.ofNat 8 (withCrc (body s)).length = n := by
    rw [withCrc_length, ← hn, BitVec.ofNat_toNat, BitVec.setWidth_eq]
  refine ⟨memWriteBytes s.tx 0 (withCrc (body s)), ?_, hn s, holdsFrame_memWriteBytes _ s.tx⟩
  rw [he, emit, complete, hlen]

/-- The body of ENC.OPEN takes the password's bytes from the lanes of PWD0 and PWD1 (R132). -/
theorem exec_encOpen (s : State) :
    exec .encOpen s = .next (emit
      [s.devaddr, 0x01, s.access, s.pwd0.extractLsb' 0 8, s.pwd0.extractLsb' 8 8,
        s.pwd0.extractLsb' 16 8, s.pwd0.extractLsb' 24 8, s.pwd1.extractLsb' 0 8,
        s.pwd1.extractLsb' 8 8] s) := rfl

/-- Settles O11: opcode 0x10 takes no ARG, and ENC.PROBE emits R131's body. -/
theorem encProbeBuildsTheProbe : Obligations.EncProbeBuildsTheProbe :=
  ⟨onlyWord_commandWord (op := 0x10) (by decide) rfl, emitsBody_of_exec (fun _ => rfl) fun _ => rfl⟩

/-- Settles O12: opcode 0x11 takes no ARG, and ENC.OPEN emits R132's body. -/
theorem encOpenBuildsTheOpenSession : Obligations.EncOpenBuildsTheOpenSession :=
  ⟨onlyWord_commandWord (op := 0x11) (by decide) rfl, emitsBody_of_exec exec_encOpen fun _ => rfl⟩

/-- Settles O13: opcode 0x12 takes no ARG, and ENC.CLOSE emits R133's body. -/
theorem encCloseBuildsTheCloseSession : Obligations.EncCloseBuildsTheCloseSession :=
  ⟨onlyWord_commandWord (op := 0x12) (by decide) rfl, emitsBody_of_exec (fun _ => rfl) fun _ => rfl⟩

/-- Settles O14: opcode 0x13 takes no ARG, and ENC.AUX emits R134's body, whatever the sub-index. -/
theorem encAuxBuildsTheReadAuxiliary : Obligations.EncAuxBuildsTheReadAuxiliary :=
  ⟨onlyWord_commandWord (op := 0x13) (by decide) rfl, emitsBody_of_exec (fun _ => rfl) fun _ => rfl⟩

/-- Settles O15: opcode 0x14 takes no ARG, and ENC.ENERGY emits R135's body. -/
theorem encEnergyBuildsTheReadEnergy : Obligations.EncEnergyBuildsTheReadEnergy :=
  ⟨onlyWord_commandWord (op := 0x14) (by decide) rfl, emitsBody_of_exec (fun _ => rfl) fun _ => rfl⟩

end Sys2Proof.Machine
end

section
/-! SUPPORT. The deserializer's commands: one validation, then the fields of the shape, at the one word of each opcode
(spec/42_deserializer.md R160, R164, R170 to R174). -/

namespace Sys2Proof.Machine

theorem storedCrcIs_iff (c : Half) (n : Nat) (s : State) :
    storedCrcIs c n s = true ↔ StoredCrc c n s := by
  simp [storedCrcIs, StoredCrc]

/-! The three ends of `validate` (R160, R164). -/

theorem decodeRx_of_size_ne {n : Nat} {s : State} (h : s.rxlen.toNat ≠ n) (v : Values) :
    decodeRx n v s = complete .wrongSize s :=
  if_pos h

theorem decodeRx_of_not_storedCrc {n : Nat} {s : State} (h : s.rxlen.toNat = n)
    (hc : ¬ StoredCrc (crc16 (rxBytes s (n - 2))) n s) (v : Values) :
    decodeRx n v s = complete .wrongCrc { s with crc := crc16 (rxBytes s (n - 2)) } := by
  rw [decodeRx, if_neg (not_not.2 h), if_neg (mt (storedCrcIs_iff _ n s).1 hc)]

theorem decodeRx_of_storedCrc {n : Nat} {s : State} (h : s.rxlen.toNat = n)
    (hc : StoredCrc (crc16 (rxBytes s (n - 2))) n s) (v : Values) :
    decodeRx n v s = decoded v { s with crc := crc16 (rxBytes s (n - 2)) } := by
  rw [decodeRx, if_neg (not_not.2 h), if_pos ((storedCrcIs_iff _ n s).2 hc)]

theorem decodes_of_exec {i : Instr} {n : Nat} {v : State → Values}
    (he : ∀ s, exec i s = .next (decodeRx n (v s) s)) : Decodes i n v := by
  intro s
  rw [he]
  refine ⟨fun h => ?_, fun h hc => ?_, fun h hc => ?_⟩
  · rw [decodeRx_of_size_ne h, complete]
  · rw [decodeRx_of_not_storedCrc h hc, complete]
  · rw [decodeRx_of_storedCrc h hc, decoded, complete]

/-! What each command decodes. -/

theorem exec_decStatus (s : State) :
    exec .decStatus s = .next (decodeRx 4 ⟨(rxByte s 1).zeroExtend 32, 0, 0, 0⟩ s) := rfl

theorem exec_decScalar3 (s : State) :
    exec .decScalar3 s = .next (decodeRx 6 ⟨rxField3 s 1, 0, 0, 0⟩ s) := rfl

theorem exec_decPhase3 (s : State) :
    exec .decPhase3 s =
      .next (decodeRx 12 ⟨rxField3 s 1, rxField3 s 4, rxField3 s 7, 0⟩ s) := rfl

theorem exec_decSumphase3 (s : State) :
    exec .decSumphase3 s =
      .next (decodeRx 15 ⟨rxField3 s 1, rxField3 s 4, rxField3 s 7, rxField3 s 10⟩ s) := rfl

theorem exec_decEnergy4 (s : State) :
    exec .decEnergy4 s =
      .next (decodeRx 19 ⟨rxField4 s 1, rxField4 s 5, rxField4 s 9, rxField4 s 13⟩ s) := rfl

/-- Settles O17: opcode 0x20 takes no ARG, and DEC.STATUS decodes the status byte. -/
theorem decStatusReturnsTheStatusByte : Obligations.DecStatusReturnsTheStatusByte :=
  ⟨onlyWord_commandWord (op := 0x20) (by decide) rfl, decodes_of_exec exec_decStatus⟩

/-- Settles O18: opcode 0x21 takes no ARG, and DEC.SCALAR3 decodes one field. -/
theorem decScalar3ReturnsOneField : Obligations.DecScalar3ReturnsOneField :=
  ⟨onlyWord_commandWord (op := 0x21) (by decide) rfl, decodes_of_exec exec_decScalar3⟩

/-- Settles O19: opcode 0x22 takes no ARG, and DEC.PHASE3 decodes three fields. -/
theorem decPhase3ReturnsThreeFields : Obligations.DecPhase3ReturnsThreeFields :=
  ⟨onlyWord_commandWord (op := 0x22) (by decide) rfl, decodes_of_exec exec_decPhase3⟩

/-- Settles O20: opcode 0x23 takes no ARG, and DEC.SUMPHASE3 decodes four fields. -/
theorem decSumphase3ReturnsFourFields : Obligations.DecSumphase3ReturnsFourFields :=
  ⟨onlyWord_commandWord (op := 0x23) (by decide) rfl, decodes_of_exec exec_decSumphase3⟩

/-- Settles O21: opcode 0x24 takes no ARG, and DEC.ENERGY4 decodes four fields. -/
theorem decEnergy4ReturnsFourFields : Obligations.DecEnergy4ReturnsFourFields :=
  ⟨onlyWord_commandWord (op := 0x24) (by decide) rfl, decodes_of_exec exec_decEnergy4⟩

end Sys2Proof.Machine
end

section
/-! SUPPORT. The packers invert the decoders of packed fields, up to the flag bits (spec/42_deserializer.md R177). -/

namespace Sys2Proof.Machine

/-- Masking keeps the six value bits and puts 0 above them. -/
theorem maskFlags_eq_zeroExtend (b : Byte) :
    b &&& 0x3F = (b.extractLsb' 0 6).zeroExtend 8 := by
  ext i hi
  interval_cases i <;> simp

theorem maskFlags_zeroExtend (x : BitVec 6) : x.zeroExtend 8 &&& 0x3F = x.zeroExtend 8 := by
  ext i hi
  interval_cases i <;> simp

theorem maskFlags_eq_self_iff (b : Byte) : b &&& 0x3F = b ↔ b.extractLsb' 6 2 = 0 := by
  refine ⟨fun h => h ▸ maskFlags_flags b, fun h => ?_⟩
  have hflags : b.toNat / 64 % 4 = 0 := by
    simpa [BitVec.extractLsb'_toNat, Nat.shiftRight_eq_div_pow] using congrArg BitVec.toNat h
  rw [maskFlags_eq_zeroExtend]
  apply BitVec.eq_of_toNat_eq
  have := b.isLt
  simp only [BitVec.zeroExtend_eq_setWidth, BitVec.toNat_setWidth, BitVec.extractLsb'_toNat,
    Nat.shiftRight_zero]
  omega

/-- In a word below `2 ^ (8 * m + 6)`, lane `m` holds its six low bits only, -/
theorem wordLane_of_lt {v : Word} (m : Nat) (h : v.toNat < 2 ^ (8 * m + 6)) :
    wordLane v m = (v.extractLsb' (8 * m) 6).zeroExtend 8 := by
  have hlt : v.toNat / 2 ^ (8 * m) < 64 := Nat.div_lt_of_lt_mul (by rwa [Nat.pow_add] at h)
  apply BitVec.eq_of_toNat_eq
  simp only [wordLane, BitVec.zeroExtend_eq_setWidth, BitVec.toNat_setWidth,
    BitVec.extractLsb'_toNat, Nat.shiftRight_eq_div_pow]
  generalize v.toNat / 2 ^ (8 * m) = q at hlt ⊢
  omega

/-- and the lanes above are 0. -/
theorem wordLane_eq_zero {v : Word} {m : Nat} (h : v.toNat < 2 ^ (8 * m)) : wordLane v m = 0 := by
  apply BitVec.eq_of_toNat_eq
  simp [wordLane, Nat.shiftRight_eq_div_pow, Nat.div_eq_of_lt h]

theorem d3_e3 {v : Word} (h : v.toNat < 2 ^ 22) : d3 (e3 v).b0 (e3 v).b1 (e3 v).b2 = v := by
  have h2 : (e3 v).b0 &&& 0x3F = wordLane v 2 :=
    (maskFlags_zeroExtend _).trans (wordLane_of_lt 2 h).symm
  have h3 : wordLane v 3 = 0 := wordLane_eq_zero (by omega)
  calc d3 (e3 v).b0 (e3 v).b1 (e3 v).b2
      = wordOfLanes (wordLane v 0) (wordLane v 1) ((e3 v).b0 &&& 0x3F) 0 := d3_eq_wordOfLanes ..
    _ = wordOfLanes (wordLane v 0) (wordLane v 1) (wordLane v 2) (wordLane v 3) := by rw [h2, h3]
    _ = v := wordOfLanes_wordLane v

theorem d4_e4 {v : Word} (h : v.toNat < 2 ^ 30) :
    d4 (e4 v).b0 (e4 v).b1 (e4 v).b2 (e4 v).b3 = v := by
  have h3 : (e4 v).b1 &&& 0x3F = wordLane v 3 :=
    (maskFlags_zeroExtend _).trans (wordLane_of_lt 3 h).symm
  calc d4 (e4 v).b0 (e4 v).b1 (e4 v).b2 (e4 v).b3
      = wordOfLanes (wordLane v 0) (wordLane v 1) (wordLane v 2) ((e4 v).b1 &&& 0x3F) :=
        d4_eq_wordOfLanes ..
    _ = wordOfLanes (wordLane v 0) (wordLane v 1) (wordLane v 2) (wordLane v 3) := by rw [h3]
    _ = v := wordOfLanes_wordLane v

theorem e3_d3 (b0 b1 b2 : Byte) : e3 (d3 b0 b1 b2) = ⟨b0 &&& 0x3F, b1, b2⟩ := by
  obtain ⟨h1, h2, h0, -⟩ := packedFieldByteOrder.1 b0 b1 b2
  rw [e3, h0, h1, h2, maskFlags_eq_zeroExtend]

theorem e4_d4 (b0 b1 b2 b3 : Byte) : e4 (d4 b0 b1 b2 b3) = ⟨b0, b1 &&& 0x3F, b2, b3⟩ := by
  obtain ⟨h2, h3, h0, h1, -⟩ := packedFieldByteOrder.2 b0 b1 b2 b3
  rw [e4, h0, h1, h2, h3, maskFlags_eq_zeroExtend]

/-- Settles O23: unpacking a packed value puts its lanes back, and packing an unpacked group masks its flag bits. -/
theorem packedFieldRoundTrip : Obligations.PackedFieldRoundTrip := by
  refine ⟨fun v => d3_e3, fun v => d4_e4, fun ⟨b0, b1, b2⟩ => ?_, fun ⟨b0, b1, b2, b3⟩ => ?_⟩
  · simpa [e3_d3] using maskFlags_eq_self_iff b0
  · simpa [e4_d4] using maskFlags_eq_self_iff b1

end Sys2Proof.Machine
end

section
/-! SUPPORT. Validation of a frame that stands in RX: it passes exactly where the frame ends with its CRC. So a response
built with its CRC decodes, and one changed byte makes it fail (spec/42_deserializer.md R160, R176, R177). -/

namespace Sys2Proof.Machine

theorem drop_length_sub_two {α : Type} (f : List α) (h : 2 ≤ f.length) :
    f.drop (f.length - 2) = [f[f.length - 2], f[f.length - 1]] := by
  rw [List.drop_eq_getElem_cons (by omega), List.drop_eq_getElem_cons (by omega),
    List.drop_of_length_le (by omega)]
  simp only [show f.length - 2 + 1 = f.length - 1 by omega]

theorem crcMatches_iff_drop {f : List Byte} (h : 2 ≤ f.length) :
    crcMatches f = true ↔ f.drop (f.length - 2) = crcBytes (crc16 (frameBody f)) := by
  have hf : f = frameBody f ++ f.drop (f.length - 2) := (List.take_append_drop ..).symm
  have hm : crcMatches f = true ↔ withCrc (frameBody f) = f := by simp [crcMatches, h]
  rw [hm, eq_comm, withCrc]
  exact ⟨fun he => List.append_cancel_left (hf.symm.trans he), fun he => he ▸ hf⟩

/-- The stored CRC in RX is the recomputed one exactly where the frame ends with its CRC. -/
theorem storedCrc_iff_crcMatches {f : List Byte} {s : State} (h : RxHolds f s) (h2 : 2 ≤ f.length) :
    StoredCrc (crc16 (rxBytes s (f.length - 2))) f.length s ↔ crcMatches f = true := by
  have hlow := rxByte_of_rxHolds h (i := f.length - 2) (by omega)
  have hhigh := rxByte_of_rxHolds h (i := f.length - 1) (by omega)
  rw [crcMatches_iff_drop h2, drop_length_sub_two f h2, StoredCrc, hlow, hhigh,
    rxBytes_of_rxHolds h (Nat.sub_le ..)]
  simp [crcBytes, frameBody]

theorem decodeRx_of_crcMatches {f : List Byte} {s : State} (h : RxHolds f s) (h2 : 2 ≤ f.length)
    (hc : crcMatches f = true) (v : Values) :
    decodeRx f.length v s = decoded v { s with crc := crc16 (rxBytes s (f.length - 2)) } :=
  decodeRx_of_storedCrc h.1 ((storedCrc_iff_crcMatches h h2).2 hc) v

theorem decodeRx_of_not_crcMatches {f : List Byte} {s : State} (h : RxHolds f s)
    (h2 : 2 ≤ f.length) (hc : ¬ crcMatches f = true) (v : Values) :
    decodeRx f.length v s = complete .wrongCrc { s with crc := crc16 (rxBytes s (f.length - 2)) } :=
  decodeRx_of_not_storedCrc h.1 (mt (storedCrc_iff_crcMatches h h2).1 hc) v

/-! One changed byte (R176). -/

theorem crcStep_register_inj {r r' : Half} {b : Byte} (h : crcStep r b = crcStep r' b) : r = r' :=
  (BitVec.xor_left_inj _).1 (crcStep_inj h)

theorem crcStep_byte_inj {r : Half} {b b' : Byte} (h : crcStep r b = crcStep r b') : b = b' := by
  have hx : b.zeroExtend 16 = b'.zeroExtend 16 := (BitVec.xor_right_inj _).1 (crcStep_inj h)
  simpa using congrArg (BitVec.setWidth 8) hx

/-- The bytes after a point take different registers to different ones. -/
theorem foldl_crcStep_inj {bs : List Byte} {r r' : Half}
    (h : bs.foldl crcStep r = bs.foldl crcStep r') : r = r' := by
  induction bs generalizing r r' with
  | nil => exact h
  | cons b bs ih => exact crcStep_register_inj (ih h)

/-- A byte that can be put at `k` without changing the CRC is the one that stands there. -/
theorem getElem_eq_of_crc16_set_eq {f : List Byte} {k : Nat} {b : Byte} (hk : k < f.length)
    (h : crc16 (f.set k b) = crc16 f) : f[k] = b := by
  have hset : f.set k b = f.take k ++ b :: f.drop (k + 1) := by
    rw [List.set_eq_take_append_cons_drop, if_pos hk]
  have hf : f = f.take k ++ f[k] :: f.drop (k + 1) := by simp
  have hfold : (f.drop (k + 1)).foldl crcStep (crcStep (crc16 (f.take k)) f[k]) =
      (f.drop (k + 1)).foldl crcStep (crcStep (crc16 (f.take k)) b) :=
    calc _ = crc16 (f.take k ++ f[k] :: f.drop (k + 1)) := (crc16_append ..).symm
      _ = crc16 (f.take k ++ b :: f.drop (k + 1)) := by rw [← hf, ← hset, h]
      _ = _ := crc16_append ..
  exact crcStep_byte_inj (foldl_crcStep_inj hfold)

/-- Both a frame and its changed copy would have CRC 0, if the copy too ended with its CRC (spec/40_crc.md R117). -/
theorem not_crcMatches_set {body : List Byte} {k : Nat} {b : Byte} (hk : k < (withCrc body).length)
    (hne : (withCrc body)[k]? ≠ some b) : ¬ crcMatches ((withCrc body).set k b) = true := by
  intro hm
  obtain ⟨body', hb⟩ := (crcMatches_iff _).1 hm
  have hcrc : crc16 ((withCrc body).set k b) = crc16 (withCrc body) := by
    rw [hb, crcOfAFrameIsZero, crcOfAFrameIsZero]
  exact hne (List.getElem?_eq_some_iff.2 ⟨hk, getElem_eq_of_crc16_set_eq hk hcrc⟩)

/-- Settles O24: the changed frame does not end with its CRC, so validation fails. -/
theorem oneChangedByteIsWrongCrc : Obligations.OneChangedByteIsWrongCrc := by
  intro i n k body b s hi hn hk hne hrx
  obtain ⟨-, -, v, he⟩ := exec_of_shape hi
  have hlen : ((withCrc body).set k b).length = n := by simpa using hn
  have hbad := not_crcMatches_set (by simpa [hn] using hk) hne
  have hdec := decodeRx_of_not_crcMatches hrx (by omega) hbad (v s)
  rw [hlen] at hdec
  exact ⟨_, (he s).trans (congrArg _ hdec), rfl, ⟨rfl, rfl, rfl, rfl⟩, rfl⟩

/-! Responses built from packed values (R177). -/

theorem rxHolds_deliver {f : List Byte} (h : f.length < 256) (s : State) :
    RxHolds f (deliver f s) := by
  refine ⟨?_, fun i hi => ?_⟩
  · rw [deliver, receive_rxlen, BitVec.toNat_ofNat, Nat.mod_eq_of_lt h]
  · rw [deliver, holdsFrame_receive f _ i, if_pos hi]

/-- A byte of the slice `bs` that stands at cell `k` of the frame in RX. -/
theorem rxByte_of_slice {f bs : List Byte} {s : State} {k n j : Nat} {b : Byte} (h : RxHolds f s)
    (hf : (f.drop k).take n = bs) (hb : bs[j]? = some b) : rxByte s (k + j) = b := by
  have hj : j < n := by
    have := (List.getElem?_eq_some_iff.1 hb).1
    rw [← hf, List.length_take] at this
    omega
  rw [← hf, List.getElem?_take_of_lt hj, List.getElem?_drop] at hb
  obtain ⟨hlt, rfl⟩ := List.getElem?_eq_some_iff.1 hb
  exact rxByte_of_rxHolds h hlt

/-- A packed field of the frame in RX decodes to its value. -/
theorem rxField3_of_rxHolds {f : List Byte} {s : State} {v : Word} (k : Nat) (h : RxHolds f s)
    (hv : v.toNat < 2 ^ 22) (hf : (f.drop k).take 3 = group3Bytes (e3 v)) : rxField3 s k = v := by
  have h0 : rxByte s k = (e3 v).b0 := rxByte_of_slice (j := 0) h hf rfl
  have h1 : rxByte s (k + 1) = (e3 v).b1 := rxByte_of_slice h hf rfl
  have h2 : rxByte s (k + 2) = (e3 v).b2 := rxByte_of_slice h hf rfl
  rw [rxField3, h0, h1, h2, d3_e3 hv]

theorem rxField4_of_rxHolds {f : List Byte} {s : State} {v : Word} (k : Nat) (h : RxHolds f s)
    (hv : v.toNat < 2 ^ 30) (hf : (f.drop k).take 4 = group4Bytes (e4 v)) : rxField4 s k = v := by
  have h0 : rxByte s k = (e4 v).b0 := rxByte_of_slice (j := 0) h hf rfl
  have h1 : rxByte s (k + 1) = (e4 v).b1 := rxByte_of_slice h hf rfl
  have h2 : rxByte s (k + 2) = (e4 v).b2 := rxByte_of_slice h hf rfl
  have h3 : rxByte s (k + 3) = (e4 v).b3 := rxByte_of_slice h hf rfl
  rw [rxField4, h0, h1, h2, h3, d4_e4 hv]

/-- A response row, received and decoded by a command of its size, passes validation: what is left to show is which
values the command takes from a buffer that holds the frame. -/
theorem exists_decoded_of_row {row cmd : Instr} {body : List Byte} {n : Nat} {v : Values} {s : State}
    (hsize : shapeSize cmd = some n) (hn : (withCrc body).length = n)
    (hrow : exec row s = .next (deliver (withCrc body) s))
    (hcmd : ∀ t, RxHolds (withCrc body) t → exec cmd t = .next (decodeRx n v t)) :
    ∃ t u : State, exec row s = .next t ∧ exec cmd t = .next u ∧ u.result = .ok ∧
      u.dvalid = true ∧ u.val0 = v.val0 ∧ u.val1 = v.val1 ∧ u.val2 = v.val2 ∧ u.val3 = v.val3 := by
  subst hn
  obtain ⟨-, hle, -⟩ := exec_of_shape hsize
  have hrx : RxHolds (withCrc body) (deliver (withCrc body) s) := rxHolds_deliver (by omega) s
  have hdec := decodeRx_of_crcMatches hrx (by simp) (crcMatches_withCrc body) v
  exact ⟨_, _, hrow, (hcmd _ hrx).trans (congrArg _ hdec), rfl, rfl, rfl, rfl, rfl, rfl⟩

/-- Settles O37: each shape's command reads from the frame of its row the fields that were packed in it. -/
theorem responseRowsDecodeToTheirValues : Obligations.ResponseRowsDecodeToTheirValues := by
  refine fun s a => ⟨fun st => ?_, fun v0 v1 v2 v3 h0 h1 h2 h3 => ⟨?_, ?_, ?_⟩,
    fun v0 v1 v2 v3 h0 h1 h2 h3 => ?_⟩
  · refine exists_decoded_of_row (v := ⟨st.zeroExtend 32, 0, 0, 0⟩) rfl rfl rfl fun t ht => ?_
    have hst : rxByte t 1 = st := rxByte_of_rxHolds ht (i := 1) (by simp)
    rw [exec_decStatus, hst]
  · refine exists_decoded_of_row (v := ⟨v0, 0, 0, 0⟩) rfl rfl rfl fun t ht => ?_
    rw [exec_decScalar3, rxField3_of_rxHolds 1 ht h0 rfl]
  · refine exists_decoded_of_row (v := ⟨v0, v1, v2, 0⟩) rfl rfl rfl fun t ht => ?_
    rw [exec_decPhase3, rxField3_of_rxHolds 1 ht h0 rfl, rxField3_of_rxHolds 4 ht h1 rfl,
      rxField3_of_rxHolds 7 ht h2 rfl]
  · refine exists_decoded_of_row (v := ⟨v0, v1, v2, v3⟩) rfl rfl rfl fun t ht => ?_
    rw [exec_decSumphase3, rxField3_of_rxHolds 1 ht h0 rfl, rxField3_of_rxHolds 4 ht h1 rfl,
      rxField3_of_rxHolds 7 ht h2 rfl, rxField3_of_rxHolds 10 ht h3 rfl]
  · refine exists_decoded_of_row (v := ⟨v0, v1, v2, v3⟩) rfl rfl rfl fun t ht => ?_
    rw [exec_decEnergy4, rxField4_of_rxHolds 1 ht h0 rfl, rxField4_of_rxHolds 5 ht h1 rfl,
      rxField4_of_rxHolds 9 ht h2 rfl, rxField4_of_rxHolds 13 ht h3 rfl]

end Sys2Proof.Machine
end

section
/-! SUPPORT. XCHG, one lemma per block of the exchange controller and answer of the channel, and what XCHG leaves alone
(spec/43_exchange.md R190 to R203). -/

namespace Sys2Proof.Machine

/-! The channel's answers (R190, log entry 8). -/

/-- A given answer to `ChanWrite`, or a free value where none is given. -/
theorem nextWrite_of_given_or_free {s : State} {a : WriteAnswer} {ws : List WriteAnswer}
    (h : s.chanWrites = a :: ws ∨ s.chanWrites = [] ∧ ws = [] ∧ a = Config.chanWriteDraw s.draws) :
    nextWrite s = a ∧ s.chanWrites.tail = ws := by
  rcases h with h | ⟨h, rfl, rfl⟩ <;> simp [nextWrite, h]

theorem nextWait_of_cons {s : State} {a : WaitAnswer} {ws : List WaitAnswer}
    (h : s.chanWaits = a :: ws) : nextWait s = a := by
  rw [nextWait, h, List.headD_cons]

theorem nextWait_of_nil {s : State} (h : s.chanWaits = []) :
    nextWait s = Config.chanWaitDraw s.draws := by
  rw [nextWait, h, List.headD_nil]

theorem nextRead_of_cons {s : State} {a : ReadAnswer} {rs : List ReadAnswer}
    (h : s.chanReads = a :: rs) : nextRead s = atMost Config.rxCap a := by
  rw [nextRead, h, List.headD_cons]

theorem nextRead_of_nil {s : State} (h : s.chanReads = []) :
    nextRead s = atMost Config.rxCap (Config.chanReadDraw s.draws) := by
  rw [nextRead, h, List.headD_nil]

/-! The blocks SEND and WAIT, answer by answer (R195). -/

section
variable {s : State}

theorem sendFrame_of_ok (h : nextWrite s = .ok) (f : List Byte) :
    sendFrame f s =
      { s with
        chanWrites := s.chanWrites.tail, sent := s.sent ++ [f], xstate := .turn, timer := 0 } := by
  simp only [sendFrame, h]

theorem sendFrame_of_err (h : nextWrite s = .err) (f : List Byte) :
    sendFrame f s = exchangeFailed .ioError { s with chanWrites := s.chanWrites.tail } := by
  simp only [sendFrame, h]

theorem waitAndRead_of_expired (h : nextWait s = .expired) :
    waitAndRead s = exchangeFailed .timeout
      { s with chanWaits := s.chanWaits.tail, timer := Config.timeoutMs } := by
  simp only [waitAndRead, h]

theorem waitAndRead_of_noByte (hw : nextWait s = .readable)
    (hr : nextRead s = .err ∨ nextRead s = .bytes []) :
    waitAndRead s = exchangeFailed .ioError
      { s with chanWaits := s.chanWaits.tail, chanReads := s.chanReads.tail } := by
  rcases hr with hr | hr <;> simp only [waitAndRead, hw, hr, endRead]

theorem waitAndRead_of_bytes {r : List Byte} (hw : nextWait s = .readable)
    (hr : nextRead s = .bytes r) (h1 : 1 ≤ r.length) : waitAndRead s = deliver r s := by
  obtain ⟨b, r, rfl⟩ := List.exists_cons_of_length_pos h1
  simp only [waitAndRead, hw, hr, endRead, deliver]

end

/-- RXLEN can hold the length of every read (spec/10_state.md R38). -/
theorem toNat_ofNat_of_le_rxCap {n : Nat} (h : n ≤ Config.rxCap) : (BitVec.ofNat 8 n).toNat = n := by
  have := rxCap_le
  rw [BitVec.toNat_ofNat, Nat.mod_eq_of_lt (by omega)]

/-! XCHG by the controller state it has reached (R195, R196). -/

section
variable {s : State}

theorem exec_xchg_exec (h : s.xstate = .exec) : exec .xchg s = .next (startExchange s) := by
  simp only [exec, execXchg, h]

theorem exec_xchg_send (h : s.xstate = .send) :
    exec .xchg s = .next (sendFrame (txFrame s) s) := by
  simp only [exec, execXchg, h]

theorem exec_xchg_turn (h : s.xstate = .turn) :
    exec .xchg s = .next { s with xstate := .wait, timer := 0 } := by
  simp only [exec, execXchg, h]

theorem exec_xchg_wait (h : s.xstate = .wait) : exec .xchg s = .next (waitAndRead s) := by
  simp only [exec, execXchg, h]

end

/-! The statements of the blocks. -/

/-- Settles O28: the bytes of a read are delivered to RX, and RX_CAP bounds their number. -/
theorem xchgKeepsWhatTheReadReturns : Obligations.XchgKeepsWhatTheReadReturns := by
  intro s r hx hw hr h1
  have hlen := nextRead_length hr
  refine ⟨hlen, memWriteBytes s.rx 0 r, BitVec.ofNat 8 r.length, ?_, toNat_ofNat_of_le_rxCap hlen,
    holdsFrame_memWriteBytes r s.rx⟩
  rw [exec_xchg_wait hx, waitAndRead_of_bytes hw hr h1]
  rfl

/-- Settles O30: each of the three ends of the WAIT block completes. -/
theorem waitAlwaysEndsTheExchange : Obligations.WaitAlwaysEndsTheExchange := by
  refine ⟨fun s hx => ?_, fun s a ws => ⟨nextWait_of_cons, nextWait_of_nil⟩,
    fun s r rs => ⟨nextRead_of_cons, nextRead_of_cons, nextRead_of_nil⟩⟩
  have hend := waitAndRead_ended s
  refine ⟨waitAndRead s, exec_xchg_wait hx, hend.busy, hend.done, hend.xstate, ?_⟩
  rcases waitAndRead_cases s with ⟨hw, e⟩ | ⟨hw, hr, e⟩ | ⟨hw, r, hr, h1, hlen, e⟩ <;> rw [e]
  · exact .inl ⟨hw, rfl, rfl, rfl⟩
  · exact .inr (.inl ⟨hw, hr, rfl, rfl, rfl⟩)
  · exact .inr (.inr ⟨hw, r, hr, h1, hlen, rfl, toNat_ofNat_of_le_rxCap hlen, holdsFrame_receive r _⟩)

/-- Whatever block XCHG performs, these fields are all that it can change (R197). -/
theorem execXchg_changes_only {s t : State} (h : execXchg s = .next t) :
    t = { s with
      result := t.result, busy := t.busy, done := t.done, xstate := t.xstate, timer := t.timer
      rx := t.rx, rxlen := t.rxlen, sent := t.sent
      chanWrites := t.chanWrites, chanWaits := t.chanWaits, chanReads := t.chanReads } := by
  rcases execXchg_cases s with ⟨_, e⟩ | ⟨_, e⟩ | ⟨_, e⟩ | ⟨_, e⟩ <;> rw [e] at h <;>
    injection h with h <;> subst h
  · rcases startExchange_cases s with ⟨_, e⟩ | ⟨_, e⟩ <;> (rewrite [e]; rfl)
  · rcases sendFrame_cases (txFrame s) s with ⟨_, e⟩ | ⟨_, e⟩ <;> (rewrite [e]; rfl)
  · rfl
  · rcases waitAndRead_cases s with ⟨_, e⟩ | ⟨_, _, e⟩ | ⟨_, _, _, _, _, e⟩ <;> (rewrite [e]; rfl)

/-- Settles O31: XCHG changes STATUS, TIMER, RX, RXLEN and the record of the channel only. -/
theorem xchgLeavesTheRest : Obligations.XchgLeavesTheRest := by
  intro s t h
  rw [execXchg_changes_only h]
  exact ⟨rfl, rfl, rfl, ⟨rfl, rfl, rfl, rfl⟩, .refl s, rfl, rfl, rfl, rfl, rfl, rfl, rfl⟩

/-- Settles O32: the bound of `endsWithin_five`. -/
theorem everyCommandCompletes : Obligations.EveryCommandCompletes := by
  intro s hb hs
  obtain ⟨n, t, h1, h5, hrun, hend⟩ := endsWithin_five hb hs
  exact ⟨n, t, h1, h5, hrun, hend.busy, hend.done, hend.xstate, hend.pending, hend.program⟩

/-- Settles O25: opcode 0x30 takes no ARG, and the EXEC block asks for a frame. -/
theorem xchgStartsOnlyWithAFrame : Obligations.XchgStartsOnlyWithAFrame := by
  refine ⟨onlyWord_commandWord (op := 0x30) (by decide) rfl, fun s hx => ?_⟩
  rw [exec_xchg_exec hx]
  exact ⟨fun h => congrArg _ (if_pos h), fun h => congrArg _ (if_neg h)⟩

/-- Settles O26: the frame of TX is on the line exactly if the channel takes it. -/
theorem xchgSendsTheFrame : Obligations.XchgSendsTheFrame := by
  intro s a ws hx h
  obtain ⟨hw, rfl⟩ := nextWrite_of_given_or_free h
  rw [exec_xchg_send hx]
  exact ⟨fun ha => congrArg _ (sendFrame_of_ok (hw.trans ha) _),
    fun ha => congrArg _ (sendFrame_of_err (hw.trans ha) _)⟩

/-- The start of a step whose move is scheduled. -/
theorem stepStart_of_cons {s : State} {m : Move} {rest : List Move} (h : s.schedule = m :: rest) :
    stepStart s = { s with schedule := rest, draws := s.draws + 1 } := by
  rw [stepStart, h, List.tail_cons]

/-- The controller's scheduled move, where it has no step enabled: nothing happens (R198, log entry 11). -/
theorem step_controller_disabled {rest : List Move} {s : State}
    (h : s.schedule = .controller :: rest) (he : controllerEnabled s = false) :
    step s = .next (stepStart s) := by
  rw [step_cons h]
  exact if_neg (ne_true_of_eq_false he)

/-- In TURN, TIMER is the controller's guard (R198). -/
theorem controllerEnabled_turn {s : State} (hx : s.xstate = .turn) (hb : s.busy = true) :
    controllerEnabled s = decide (Config.turnMs ≤ s.timer) := by
  simp [controllerEnabled, hx, hb]

/-- Settles O27: TIMER decides whether the step from TURN is enabled, and that step is the TURN block of XCHG. -/
theorem turnLastsTheTurnaroundDelay : Obligations.TurnLastsTheTurnaroundDelay := by
  intro s rest hx hb hp hs
  have he := controllerEnabled_turn hx hb
  refine ⟨fun hlt => ?_, fun hle => ?_⟩
  · rw [step_controller_disabled hs (by rw [he]; simpa using hlt), stepStart_of_cons hs]
  · have hi : currentInstr s = .xchg := by rw [currentInstr, hp]; rfl
    rw [step_controller hs (by rw [he]; simpa using hle), hi, exec_xchg_turn (by simpa using hx),
      stepStart_of_cons hs]

/-- Settles O29: an expired wait, and a read without a byte, fail the exchange. -/
theorem xchgErrorsClearRxlen : Obligations.XchgErrorsClearRxlen := by
  intro s hx
  rw [exec_xchg_wait hx]
  exact ⟨fun hw => congrArg _ (waitAndRead_of_expired hw),
    fun hw hr => congrArg _ (waitAndRead_of_noByte hw hr)⟩

/-! The frames of the table as the exchange's blocks (log entry 12). -/

theorem exec_request {i : Instr} (h : portOf i = .request) (s : State) :
    exec i s = .next (sendFrame (encode i) s) := by
  cases i <;> cases h <;> rfl

theorem exec_response {i : Instr} (h : portOf i = .response) (s : State) :
    exec i s = .next (deliver (encode i) s) := by
  cases i <;> cases h <;> rfl

/-- Every response fits into one read (spec/30_encoding.md R91, spec/00_scope.md R6). -/
theorem encode_response_length {i : Instr} (h : portOf i = .response) :
    1 ≤ (encode i).length ∧ (encode i).length ≤ Config.rxCap := by
  have := rxCap_ge
  cases i <;> cases h <;> simp [encode, group3Bytes, group4Bytes] <;> omega

/-- Settles O36: a row encodes the frame it was decoded from, so SEND sends that row's frame and WAIT delivers it. -/
theorem xchgStepIsTheFramesRow : Obligations.XchgStepIsTheFramesRow := by
  refine ⟨fun s i hx hd => ?_, fun s i r ws rs hx hw hr hd => ?_⟩
  · obtain ⟨hport, -, henc⟩ := encodeAfterDecode .request _ i hd
    rw [exec_xchg_send hx, exec_request hport, henc]
  · obtain ⟨hport, -, rfl⟩ := encodeAfterDecode .response r i hd
    obtain ⟨h1, hcap⟩ := encode_response_length hport
    have hread : nextRead s = .bytes (encode i) := by
      rw [nextRead_of_cons hr, atMost, List.take_of_length_le hcap]
    rw [exec_xchg_wait hx, waitAndRead_of_bytes (nextWait_of_cons hw) hread h1, exec_response hport]

end Sys2Proof.Machine
end

section
/-! SUPPORT. Acceptance and completion at the host's and the controller's moves: what a CMD write does while BUSY is 0 or 1,
what the controller's move performs, and the two orders of a CMD write and a completion (spec/60_exceptions.md R220 to
R226). -/

namespace Sys2Proof.Machine

/-! A command that its next controller step completes (R224, spec/43_exchange.md R196). -/

theorem xstate_ne_turn_of_completesNow {s : State} (h : CompletesNow s) : s.xstate ≠ .turn := by
  rcases h with ⟨hx, -⟩ | ⟨-, ⟨hx, -⟩ | hx⟩ <;> simp [hx]

theorem startExchange_ended {s : State} (h : s.txlen = 0) : CommandEnded s (startExchange s) := by
  rw [startExchange, if_pos h]
  exact ⟨rfl, rfl, rfl, rfl, rfl, rfl, rfl⟩

theorem sendFrame_ended {s : State} (h : nextWrite s = .err) (f : List Byte) :
    CommandEnded s (sendFrame f s) := by
  rw [sendFrame_of_err h]
  exact ⟨rfl, rfl, rfl, rfl, rfl, rfl, rfl⟩

/-- XCHG ends in EXEC without a frame, in SEND at a failed write, and in WAIT. -/
theorem exec_xchg_ended {s : State} (hi : currentInstr s = .xchg) (h : CompletesNow s) :
    ∃ t, exec .xchg s = .next t ∧ CommandEnded s t := by
  rcases h with ⟨hx, hne | hlen⟩ | ⟨-, ⟨hx, herr⟩ | hx⟩
  · exact absurd hi hne
  · exact ⟨_, exec_xchg_exec hx, startExchange_ended hlen⟩
  · exact ⟨_, exec_xchg_send hx, sendFrame_ended herr _⟩
  · exact ⟨_, exec_xchg_wait hx, waitAndRead_ended s⟩

theorem exec_ended_of_completesNow {s : State} (h : CompletesNow s) :
    ∃ t, exec (currentInstr s) s = .next t ∧ CommandEnded s t := by
  by_cases hi : currentInstr s = .xchg
  · rw [hi]
    exact exec_xchg_ended hi h
  · obtain ⟨t, ht⟩ := exec_next (currentInstr s) s
    exact ⟨t, ht, exec_ended (portOf_decodeCommand s.pending) hi ht⟩

/-- The controller's scheduled move, where it completes the command in progress. -/
theorem step_controller_ended {s : State} {rest : List Move}
    (hs : s.schedule = .controller :: rest) (hb : s.busy = true) (h : CompletesNow (stepStart s)) :
    ∃ t, step s = .next t ∧ CommandEnded (stepStart s) t := by
  have hne : s.xstate ≠ .turn := by simpa using xstate_ne_turn_of_completesNow h
  rw [step_controller hs (controllerEnabled_of_ne_turn hb hne)]
  exact exec_ended_of_completesNow h

/-! The host's writes while BUSY = 1 (R220, spec/20_memory.md R63). -/

section
variable {w : Word} {more : List HostInstr} {rest : List Move} {s : State}

/-- The host's turn at a CMD write while BUSY = 1: the word is dropped. -/
theorem step_dropCommand (hb : s.busy = true)
    (ht : HostTurn (.write (busAddress 0x000) 32 w) more rest s) :
    step s = .next (dropCommand (afterTurn more rest s)) := by
  rw [step_hostWrite ht (by decide) (by decide), regWrite_busy (s := afterTurn more rest s) hb]
  exact congrArg _ (if_pos rfl)

/-- CMD is at offset 0x000 only (spec/10_state.md R22). -/
theorem regAt_ne_cmd {off : Nat} (h : off ≠ 0x000) : regAt off ≠ .cmd := by
  unfold regAt
  split
  case h_1 => exact absurd rfl h
  case h_20 => split <;> simp
  all_goals simp

/-- The host's turn at a supported write to another register while BUSY = 1: nothing happens. -/
theorem step_hostWrite_busy {off : Nat} (hb : s.busy = true)
    (ht : HostTurn (.write (busAddress off) 32 w) more rest s) (h : off < 0x200)
    (h4 : off % 4 = 0) (hne : off ≠ 0x000) : step s = .next (afterTurn more rest s) := by
  rw [step_hostWrite ht h h4, regWrite_busy (s := afterTurn more rest s) hb,
    if_neg (regAt_ne_cmd hne)]

end

/-- The start of a step with no move scheduled. -/
theorem stepStart_of_nil {s : State} (h : s.schedule = []) :
    stepStart s = { s with schedule := [], draws := s.draws + 1 } := by
  rw [stepStart, h, List.tail_nil]

/-! The statements. -/

/-- Settles O48: the completion frees the MFE for a write that comes after it, and a write that comes before it changes
nothing that the completion looks at. -/
theorem bothOrdersOfARace : Obligations.BothOrdersOfARace := by
  intro s w more rest hb hp
  refine ⟨fun hs hc => ?_, fun hs hc => ?_⟩
  · obtain ⟨t, ht, hend⟩ := step_controller_ended hs hb hc
    have hsched : t.schedule = .host :: rest := by rw [hend.schedule, stepStart_of_cons hs]
    have hw := step_acceptCommand (w := w) hend.busy ⟨hend.program.trans hp, .inl hsched⟩
    refine ⟨accept w (afterTurn more rest t), ?_, rfl, rfl, rfl, rfl, rfl⟩
    rw [run_next ht, run_next hw]
    rfl
  · have hw := step_dropCommand (rest := .controller :: rest) hb ⟨hp, .inl hs⟩
    obtain ⟨t, ht, hend⟩ := step_controller_ended
      (s := dropCommand (afterTurn more (.controller :: rest) s)) rfl hb hc
    refine ⟨t, ?_, hend.busy, hend.done, hend.pending, hend.cmderr, hend.xstate⟩
    rw [run_next hw, run_next ht]
    rfl

/-- Settles O5: an illegal word is `complete` with ILLEGAL_OP, in every state. -/
theorem illegalWordCompletes : Obligations.IllegalWordCompletes :=
  fun _ _ => rfl

/-- Settles O38: a CMD write is `accept` while BUSY = 0 and `dropCommand` while BUSY = 1, where no other write has an
effect. -/
theorem acceptanceOfCommands : Obligations.AcceptanceOfCommands := by
  intro s w more rest
  refine ⟨fun hb ht => ?_, step_dropCommand, fun off hb ht h h4 hne => ?_⟩
  · exact ⟨accept w (afterTurn more rest s), step_acceptCommand hb ht, rfl, rfl, rfl⟩
  · exact step_hostWrite_busy hb ht h h4 hne

/-- Settles O52: the bytes of PENDING decode to the command in progress, and the enabled controller performs it. -/
theorem stepRunsTheDecodedInstruction : Obligations.StepRunsTheDecodedInstruction := by
  intro s i rest hd he
  obtain rfl : currentInstr s = i := by
    rw [decode_command_wordBytes] at hd
    exact Except.ok.inj hd
  refine ⟨fun hs => ?_, fun hs => ?_⟩
  · rw [step_enabled hs he, stepStart_of_nil hs]
  · rw [step_controller hs he, stepStart_of_cons hs]

end Sys2Proof.Machine
end

section
/-! SUPPORT. Reset and the first command after it (spec/70_reset_and_hazards.md R250, R251). -/

namespace Sys2Proof.Machine

/-- The scheduled reset, whatever is in progress (R250). -/
theorem step_reset {s : State} {rest : List Move} (h : s.schedule = .reset :: rest) :
    step s = .next (resetMachine (stepStart s)) :=
  step_cons h

theorem startExchange_of_txlen_eq_zero {s : State} (h : s.txlen = 0) :
    startExchange s = complete .noFrame s :=
  if_pos h

/-- A DEC.* where RXLEN is not the size of its shape (spec/42_deserializer.md R160). -/
theorem exec_of_shape_of_size_ne {i : Instr} {n : Nat} {s : State} (hi : shapeSize i = some n)
    (h : s.rxlen.toNat ≠ n) : exec i s = .next (complete .wrongSize s) := by
  obtain ⟨-, -, v, he⟩ := exec_of_shape hi
  rw [he, decodeRx_of_size_ne h]

/-- The five DEC.* are well-formed commands, so their words decode to them. -/
theorem decodeCommand_encodeCommand_of_shape {i : Instr} {n : Nat} (h : shapeSize i = some n) :
    decodeCommand (encodeCommand i) = i := by
  obtain ⟨hp, hw⟩ : portOf i = .command ∧ wellFormed i = true := by
    cases i <;> cases h <;> exact ⟨rfl, rfl⟩
  exact decodeCommand_encodeCommand hp hw

/-- Settles O50: the reset of the schedule is `resetMachine`, which looks at no register of the MFE. -/
theorem resetFromAnyState : Obligations.ResetFromAnyState := by
  intro s rest h
  rw [step_reset h, stepStart_of_cons h, resetMachine]

/-- Settles O51: at reset TXLEN is 0, so XCHG has no frame, and RXLEN is 0, which is the size of no shape. -/
theorem firstCommandsAfterReset : Obligations.FirstCommandsAfterReset := by
  refine ⟨?xchg, fun i n hi => ?dec⟩
  case xchg =>
    have hdec : decodeCommand 0x00000030 = .xchg := rfl
    rw [step_placeCommand, hdec, exec_xchg_exec rfl, startExchange_of_txlen_eq_zero rfl]
    exact ⟨_, rfl, rfl, rfl⟩
  case dec =>
    obtain ⟨hpos, -, -⟩ := exec_of_shape hi
    have hsize : State.reset.rxlen.toNat ≠ n := Nat.ne_of_lt (Nat.lt_of_lt_of_le (by decide) hpos)
    rw [step_placeCommand, decodeCommand_encodeCommand_of_shape hi]
    exact ⟨_, exec_of_shape_of_size_ne hi hsize, rfl, rfl, rfl, rfl, rfl, rfl⟩

end Sys2Proof.Machine
end

section
/-! SUPPORT. Words and frames written out from spec/30_encoding.md and spec/95_test_vectors.md: each but the word 0 is
the encoding of its instruction, so the decoder gives that instruction back. -/

namespace Sys2Proof

open Sys2Proof.Machine

/-- The CRC of spec/95_test_vectors.md 2.2, ENC.PROBE with DEVADDR 0. -/
theorem crc16_zero_zero : crc16 [0x00, 0x00] = 0xB001 := by
  simp [crc16, crcStep, crcRounds, crcRound, Config.crcInit, Config.crcPoly]

/-- The CRC of spec/95_test_vectors.md 2.3.1, the response with the frequency 50.00 Hz. -/
theorem crc16_frequencyResponse : crc16 [0x00, 0x00, 0x88, 0x13] = 0xE927 := by
  simp [crc16, crcStep, crcRounds, crcRound, Config.crcInit, Config.crcPoly]

theorem encode_wireRequestProbe_zero :
    encode (.wireRequestProbe 0x00) = [0x00, 0x00, 0x01, 0xB0] := by
  rw [encode, withCrc, crc16_zero_zero]
  rfl

theorem encode_wireResponseScalar3_frequency :
    encode (.wireResponseScalar3 0x00 ⟨0x00, 0x88, 0x13⟩) = [0x00, 0x00, 0x88, 0x13, 0x27, 0xE9] := by
  rw [encode, withCrc, group3Bytes, crc16_frequencyResponse]
  rfl

/-- Settles O1: the word 0 has an opcode that the map does not list, and the decoder inverts the encoder on all the
others. -/
theorem writtenOutEncodingsDecode : Obligations.WrittenOutEncodingsDecode := by
  refine ⟨?crcInit, ?crcByte, ?encEnergy, ?decEnergy4, ?xchg, ?zero, ?probe, ?scalar3⟩
  case crcInit => exact decodeCommand_encodeCommand (i := .crcInit) rfl rfl
  case crcByte => exact decodeCommand_crcByte 0xFF
  case encEnergy => exact decodeCommand_encodeCommand (i := .encEnergy) rfl rfl
  case decEnergy4 => exact decodeCommand_encodeCommand (i := .decEnergy4) rfl rfl
  case xchg => exact decodeCommand_encodeCommand (i := .xchg) rfl rfl
  case zero => exact decodeCommand_illegal rfl
  case probe => exact encode_wireRequestProbe_zero ▸ decode_encode_request rfl
  case scalar3 => exact encode_wireResponseScalar3_frequency ▸ decode_encode_response rfl

end Sys2Proof
end
